-- ==== Sys2Proof/Word.lean ====
section
/-! DEFINITION. The CORE's units of data and its plainest arithmetic (00_scope.md R5, R6): words, bytes, modular
addition, and arrays listed by index. -/

namespace Sys2Proof

/-- A word: 32 bits, unsigned (R5 WORD, R6). -/
abbrev Word := BitVec 32

/-- A byte: 8 bits, bit 7 the most significant (R6). -/
abbrev Byte := BitVec 8

/-- `add32`: addition modulo 2^32; a carry out of bit 31 is dropped and recorded nowhere (R6, R126). -/
def add32 (x y : Word) : Word := x + y

/-- `add64`: addition modulo 2^64, used only for the length counter and TOTAL (R6, R30, R33). -/
def add64 (x y : BitVec 64) : BitVec 64 := x + y

/-- The array whose element at index `i` is `f i`, for `i = 0 .. n - 1`. -/
def tabulate {α : Type} (n : Nat) (f : Nat → α) : Vector α n :=
  ⟨((List.range n).map f).toArray, by simp⟩

end Sys2Proof
end

