-- ==== Sys2Proof/Machine/Constants.lean ====
section
/-! DEFINITION. The two constant tables of the CORE (10_state.md R25, R26; 40_compress.md R115, R116): read-only,
written by no command and untouched by reset. The spec marks the values as general knowledge that it recomputed (log
entry 16). -/

namespace Sys2Proof.Machine

/-- The table of R115: each prime with the first 32 bits of the fractional part of its square root. -/
def ivRows : List (Nat × Word) := [
  (2, 0x6a09e667),
  (3, 0xbb67ae85),
  (5, 0x3c6ef372),
  (7, 0xa54ff53a),
  (11, 0x510e527f),
  (13, 0x9b05688c),
  (17, 0x1f83d9ab),
  (19, 0x5be0cd19)]

/-- IV[0..7]: the last column of the table (R26, R115). -/
def ivTable : Vector Word 8 := ⟨(ivRows.map Prod.snd).toArray, rfl⟩

/-- The table of R116 row by row: `t` of the first word of the row, and the four words `K[t]` to `K[t+3]`. -/
def kRows : List (Nat × List Word) := [
  (0, [0x428a2f98, 0x71374491, 0xb5c0fbcf, 0xe9b5dba5]),
  (4, [0x3956c25b, 0x59f111f1, 0x923f82a4, 0xab1c5ed5]),
  (8, [0xd807aa98, 0x12835b01, 0x243185be, 0x550c7dc3]),
  (12, [0x72be5d74, 0x80deb1fe, 0x9bdc06a7, 0xc19bf174]),
  (16, [0xe49b69c1, 0xefbe4786, 0x0fc19dc6, 0x240ca1cc]),
  (20, [0x2de92c6f, 0x4a7484aa, 0x5cb0a9dc, 0x76f988da]),
  (24, [0x983e5152, 0xa831c66d, 0xb00327c8, 0xbf597fc7]),
  (28, [0xc6e00bf3, 0xd5a79147, 0x06ca6351, 0x14292967])] ++ [
  (32, [0x27b70a85, 0x2e1b2138, 0x4d2c6dfc, 0x53380d13]),
  (36, [0x650a7354, 0x766a0abb, 0x81c2c92e, 0x92722c85]),
  (40, [0xa2bfe8a1, 0xa81a664b, 0xc24b8b70, 0xc76c51a3]),
  (44, [0xd192e819, 0xd6990624, 0xf40e3585, 0x106aa070]),
  (48, [0x19a4c116, 0x1e376c08, 0x2748774c, 0x34b0bcb5]),
  (52, [0x391c0cb3, 0x4ed8aa4a, 0x5b9cca4f, 0x682e6ff3]),
  (56, [0x748f82ee, 0x78a5636f, 0x84c87814, 0x8cc70208]),
  (60, [0x90befffa, 0xa4506ceb, 0xbef9a3f7, 0xc67178f2])]

/-- K[0..63], the round constants: the words of the rows in order (R25, R116). -/
def kTable : List Word := kRows.flatMap Prod.snd

/-- `K[t]`, read only by round `t` for `0 <= t <= 63` (R25, R61). -/
def kAt (t : Nat) : Word := kTable.getD t 0

end Sys2Proof.Machine
end

