-- ==== Sys2Proof/Config.lean ====
section
/-! DEFINITION. What the spec leaves to the implementation, and the free values (00_scope.md R5, 10_state.md R42, R44,
70_reset_and_hazards.md R221, R240, 93_implementation_defined.md U9, U11, U13, U17, U18, U22). Every constant below has NO BODY: no proof can learn a value of it, so
a claim about the model holds whatever the value is. The tables IV and K, which the spec fixes in every bit, are in
Machine/Constants.lean. -/

namespace Sys2Proof

/-- The places whose value the spec calls unspecified, one name each: the registers reset leaves unspecified (R42,
R220), and the digest port while digest_valid = 0 (R34, U11). -/
inductive Unspecified
  | hashState | buffer | workingVars | schedule | temp1 | temp2 | roundIndex | total | digest | digestPort
deriving DecidableEq, Repr

/-- The cases of 70_reset_and_hazards.md R239, one open latency each. -/
inductive LatencyCase
  | tInit | tUpdate | tUpdateCmp | tFinal1 | tFinal2 | tFault
deriving DecidableEq, Repr

/-- The status ports that may still show the old value while a command is in flight (R45, R234, U13). -/
inductive StatusPort
  | phase | fcause | lenOvf
deriving DecidableEq, Repr

/-- What the parameter RESET_STYLE says of the reset input (00_scope.md R5, 70_reset_and_hazards.md R221, U18). -/
structure ResetStyle where
  /-- The active level of the pin rst: asserted is 1 rather than 0. -/
  activeHigh : Bool
  /-- Whether an assertion takes effect between two clock edges too; a synchronous CORE sees rst at rising edges only. -/
  asynchronous : Bool
  /-- The minimum width of an assertion, in the unit the implementation gives it in. -/
  minWidth : Nat
deriving DecidableEq, Repr, Inhabited

/-- RESET_STYLE, open (R5, R221; log entry 13). -/
opaque Config.resetStyle : ResetStyle

/-- Whether an assertion of rst narrower than the minimum width takes effect all the same (R221; log entry 13). -/
opaque Config.narrowResetTakes (instant : Nat) (data : List Nat) : Bool

/-- The free value found in place `what`, element `index`. Like every free value below it may depend on the instant and
on `data`, the values of all registers: nothing can be proved about what it keeps or hides of them (R240, U22; log
entries 3, 4 and 17). -/
opaque Config.freeBits (what : Unspecified) (width instant : Nat) (data : List Nat) (index : Nat) : BitVec width

/-- How many cycles beyond the first the word accepted at this instant takes; `data` is the word and the values of all
registers, the message byte among them (R239, R240; log entry 5). -/
opaque Config.extraCycles (c : LatencyCase) (instant : Nat) (data : List Nat) : Nat

/-- With how many cycles left the port `p` turns from the old to the new value, for the word accepted at this instant
(R45, R234, R240; log entry 6). -/
opaque Config.settlesWithLeft (p : StatusPort) (instant : Nat) (data : List Nat) : Nat

/-- T_RESET less one (R5, R42: T_RESET is finite and at least 1). -/
opaque Config.resetBoundLessOne : Nat

/-- How long the CORE would take to become ready after a reset at this instant; cut off at T_RESET (R221). -/
opaque Config.resetDelay (instant : Nat) (data : List Nat) : Nat

/-- Cycles from acceptance to cmd_ready = 1 again: the parameters T_INIT .. T_FAULT, each at least 1 (R239). -/
def Config.latency (c : LatencyCase) (instant : Nat) (data : List Nat) : Nat := Config.extraCycles c instant data + 1

/-- T_RESET: the bound on the cycles from release of reset to cmd_ready = 1 (R5, R221). -/
def Config.tReset : Nat := Config.resetBoundLessOne + 1

/-- Cycles from release of this reset to cmd_ready = 1: at least 1, at most T_RESET (R42, R221). -/
def Config.resetLatency (instant : Nat) (data : List Nat) : Nat := min (Config.resetDelay instant data + 1) Config.tReset

end Sys2Proof
end

