-- ==== Sys2Proof/Syntax.lean ====
section
/-! DEFINITION. The command set (30_encoding.md R90, R93, R95) and the textual layer over it: operands as written,
program lines and pseudo-commands (R99, R100). COMPRESS is no command: the host cannot issue it (R90). -/

namespace Sys2Proof

/-- The three commands, one constructor per row of the opcode table (R90, R96). The only explicit operand is the
message byte of UPDATE, used as it stands: all 256 values are legal (R95). -/
inductive Instr
  | init
  | update (d : Byte)
  | final
deriving DecidableEq, Repr

/-- The operand of UPDATE as a program writes it (R99): a number, written `0xNN` or in decimal, or one character in
single quotes. -/
inductive Operand
  | number (n : Nat)
  | character (c : Char)
deriving DecidableEq, Repr

/-- One line of a program (R99) or a pseudo-command (R100). -/
inductive SourceLine
  /-- `INIT` -/
  | init
  /-- `UPDATE d` -/
  | update (d : Operand)
  /-- `FINAL` -/
  | final
  /-- `UPDATES "s"` or `UPDATES x"hh..hh"`: the bytes of `s`, possibly none. -/
  | updates (bytes : List Byte)
  /-- `HASH "s"` -/
  | hash (bytes : List Byte)
  /-- `WAITDIGEST`: no command; the host idles until digest_valid = 1. -/
  | waitDigest
deriving DecidableEq, Repr

/-- The byte an operand stands for: a number as it is, a character by its ASCII code (R99: `'a'` is `0x61`). -/
def Operand.byte : Operand → Byte
  | .number n => BitVec.ofNat 8 n
  | .character c => BitVec.ofNat 8 c.toNat

/-- The UPDATE commands of a byte string, in order; none for the empty string (R90, R100). -/
def updatesOf (bytes : List Byte) : List Instr := bytes.map Instr.update

/-- The commands a message is hashed by: INIT, one UPDATE per byte, FINAL (R100 HASH, R225 steps 2 to 4). -/
def hashCommands (bytes : List Byte) : List Instr := .init :: (updatesOf bytes ++ [.final])

/-- The commands a line stands for; a pseudo-command has no encoding of its own (R100). -/
def SourceLine.commands : SourceLine → List Instr
  | .init => [.init]
  | .update d => [.update d.byte]
  | .final => [.final]
  | .updates bytes => updatesOf bytes
  | .hash bytes => hashCommands bytes
  | .waitDigest => []

/-- The commands of a program: its lines in order (R99, R100). -/
def programCommands (lines : List SourceLine) : List Instr := lines.flatMap SourceLine.commands

end Sys2Proof
end

