-- ==== Sys2Proof/WellFormed.lean ====
section
/-! DEFINITION. Well-formedness. A command word's operand is a byte by type, so every term of Instr is well-formed
(30_encoding.md R95); what can be ill-formed is the text of a program: an operand that is no byte (R99). -/

namespace Sys2Proof

/-- Every command is well-formed: UPDATE takes any byte, INIT and FINAL take nothing (R93, R95). -/
def Instr.wf : Instr → Bool
  | .init => true
  | .update _ => true
  | .final => true

/-- A number must be 0 to 255; a character must be a printable ASCII character (R99). -/
def Operand.wf : Operand → Bool
  | .number n => decide (n ≤ 255)
  | .character c => decide (0x20 ≤ c.toNat ∧ c.toNat ≤ 0x7E)

/-- A line is well-formed when its operand is; pseudo-commands take byte strings, which are bytes by type (R99, R100). -/
def SourceLine.wf : SourceLine → Bool
  | .init => true
  | .update d => d.wf
  | .final => true
  | .updates _ => true
  | .hash _ => true
  | .waitDigest => true

/-- A program is well-formed when each of its lines is. -/
def programWf (lines : List SourceLine) : Bool := lines.all SourceLine.wf

end Sys2Proof
end

