-- ==== Sys2Proof/Decode.lean ====
section
/-! DEFINITION. Decoding and encoding of the 10-bit command word (30_encoding.md R93 to R98). A command is delivered
whole on the command channel, so there is no byte order of fetch (20_memory.md R63). -/

namespace Sys2Proof

/-- The command word: op in bits 9:8, data in bits 7:0 (R93). -/
abbrev CmdWord := BitVec 10

/-- A row of the opcode map: the word `w` selects it when `w AND mask = pattern` (R96). -/
structure OpcodeRow where
  pattern : CmdWord
  mask : CmdWord
deriving DecidableEq, Repr

/-- `01 00000000` (R96). -/
def initRow : OpcodeRow := ⟨0x100, 0x3FF⟩

/-- `10 dddddddd` (R96). -/
def updateRow : OpcodeRow := ⟨0x200, 0x300⟩

/-- `11 00000000` (R96). -/
def finalRow : OpcodeRow := ⟨0x300, 0x3FF⟩

/-- The named rows of the opcode map (R96). -/
def opcodeRows : List OpcodeRow := [initRow, updateRow, finalRow]

/-- Whether a word selects a row (R96). -/
def OpcodeRow.selects (r : OpcodeRow) (w : CmdWord) : Bool := decide (w &&& r.mask = r.pattern)

/-- Field `op` of a word (R93). -/
def opField (w : CmdWord) : BitVec 2 := w.extractLsb' 8 2

/-- Field `data` of a word (R93): `data[7]` is the most significant bit of the message byte (20_memory.md R63). -/
def dataField (w : CmdWord) : Byte := w.extractLsb' 0 8

/-- The three classes of reserved words (R96, R97). -/
inductive Reserved
  /-- `00 xxxxxxxx`: words 0x000 to 0x0FF. -/
  | opZero
  /-- `01 xxxxxxxx` with data not zero: words 0x101 to 0x1FF. -/
  | initData
  /-- `11 xxxxxxxx` with data not zero: words 0x301 to 0x3FF. -/
  | finalData
deriving DecidableEq, Repr

/-- What a word decodes to: a command, or a reserved word with its class. -/
inductive Decoded
  | command (i : Instr)
  | reserved (r : Reserved)
deriving DecidableEq, Repr

/-- The class of a word that selects no row (R96, R97). -/
def reservedClass (w : CmdWord) : Reserved :=
  if opField w = 0 then .opZero else if opField w = 1 then .initData else .finalData

/-- The decoder: try the three rows; a word that matches none is reserved (R94, R96). Total on all 1024 words, and
PHASE never changes which command a word is (R98). -/
def decode (w : CmdWord) : Decoded :=
  if initRow.selects w then .command .init
  else if updateRow.selects w then .command (.update (dataField w))
  else if finalRow.selects w then .command .final
  else .reserved (reservedClass w)

/-- A word from its two fields: `op || data` (R93). -/
def wordOf (op : BitVec 2) (data : Byte) : CmdWord := op ++ data

/-- The encoder: the word of a command (R93, R96). -/
def encode : Instr → CmdWord
  | .init => wordOf 0b01 0
  | .update d => wordOf 0b10 d
  | .final => wordOf 0b11 0

/-- The bits a host gives for a table row: `nbits` bits, every bit above them 0. -/
def tableBits (nbits w : Nat) : Nat := w % 2 ^ nbits

/-- The word of a table row as the decoder reads it. A command has ten bits (R93, R98), so a number with a bit above
bit 9 is no command word (log entry 9). -/
def decodeTableWord (nbits w : Nat) : Option Instr :=
  if tableBits nbits w < 1024 then
    match decode (BitVec.ofNat 10 (tableBits nbits w)) with
    | .command i => some i
    | .reserved _ => none
  else none

end Sys2Proof
end

