-- ==== Sys2Proof/Machine/State.lean ====
section
/-! DEFINITION. The state of one CORE instance (10_state.md R20) as plain data, its value after reset (R42), and the
reasons a step can stop. K and IV are constants (Machine/Constants.lean); the ports that are functions of the state
are in Machine/Ports.lean (R37). -/

namespace Sys2Proof.Machine

/-- PHASE, the 2-bit phase register; all four codes are used (R35). -/
inductive Phase
  | idle | active | done | fault
deriving DecidableEq, Repr

/-- FCAUSE, the cause register (R36, 60_exceptions.md R190). Codes 6 and 7 are never produced (U16). -/
inductive Cause
  | none | illegalCmd | updateAfterFinal | finalAfterFinal | updateNoContext | finalNoContext
deriving DecidableEq, Repr

/-- The working variables a .. h of a COMPRESS (R22). -/
structure Vars where
  a : Word
  b : Word
  c : Word
  d : Word
  e : Word
  f : Word
  g : Word
  h : Word
deriving DecidableEq, Repr

/-- The scratch registers of the compression core: working variables, schedule, temporaries and index (R22 to R24). -/
structure Scratch where
  /-- a .. h (R22). -/
  vars : Vars
  /-- W[0..63] (R23). -/
  w : Vector Word 64
  /-- T1 (R24). -/
  t1 : Word
  /-- T2 (R24). -/
  t2 : Word
  /-- t, 0 to 64 (R24). -/
  t : BitVec 7
deriving DecidableEq, Repr

/-- What stands on the input ports at one instant (30_encoding.md R92): a rising edge of clk, or an instant between two
edges, at which rst alone can matter (70_reset_and_hazards.md R221: reset can occur between any two steps). -/
structure PortSample where
  /-- Whether clk rises at this instant. -/
  clk : Bool
  /-- rst: not asserted, or asserted for so long by now, in the unit of the minimum width (R221; log entry 13). -/
  rst : Option Nat
  cmdValid : Bool
  cmd : CmdWord
deriving DecidableEq, Repr

/-- A clock edge at which the host asserts nothing (R91: idle cycles). -/
def PortSample.idle : PortSample := ⟨true, none, false, 0⟩

/-- A clock edge at which the host presents the command word `w` (R91). -/
def PortSample.present (w : CmdWord) : PortSample := ⟨true, none, true, w⟩

/-- The three status registers a port shows (R45). -/
structure StatusView where
  phase : Phase
  fcause : Cause
  lenOvf : Bool
deriving DecidableEq, Repr

/-- With how many cycles left each status port turns to the new value, for the command in flight (R45, R234). -/
structure SettlePoints where
  phase : Nat
  fcause : Nat
  lenOvf : Nat
deriving DecidableEq, Repr

/-- The complete state of one CORE instance (R20), followed by the model's own fields: the host's coming inputs (R44)
and what BUSY needs to fall again (R40, R239). The registers a rule calls dead keep what a literal execution leaves in
them (log entry 12). -/
structure State where
  /-- H[0..7], the hash state (R21). -/
  h : Vector Word 8
  /-- BUF[0..63], the partial-block buffer (R27). -/
  buf : Vector Byte 64
  /-- BUFLEN, the count of buffered bytes, 0 to 63 (R28). -/
  buflen : BitVec 6
  /-- BITLEN, the bits compressed so far by UPDATE (R30). -/
  bitlen : BitVec 64
  /-- LEN_OVF, sticky: BITLEN has wrapped (R32). -/
  lenOvf : Bool
  /-- a .. h, W, T1, T2, t: scratch of COMPRESS (R22 to R24). -/
  scratch : Scratch
  /-- TOTAL, scratch of FINAL (R33). -/
  total : BitVec 64
  /-- DIGEST[0..31], the output register (R34). -/
  digest : Vector Byte 32
  /-- PHASE (R35). -/
  phase : Phase
  /-- FCAUSE (R36). -/
  fcause : Cause
  /-- BUSY: a command is in flight, or reset has not let go yet (R40, R42). -/
  busy : Bool
  /-- The model's own: what the input ports show at the coming instants, the next one first; none left means idle
  edges (log entry 7). -/
  inputs : List PortSample
  /-- The model's own: the number of instants so far, an argument of every free value (log entry 17). -/
  instant : Nat
  /-- The model's own: cycles left until BUSY falls; 0 exactly when BUSY = 0 (Safety.lean). -/
  left : Nat
  /-- The model's own: when the status ports turn, for the command in flight (log entry 6). -/
  settle : SettlePoints
  /-- The model's own: the status registers from before the command in flight, which a port may still show. -/
  before : StatusView
deriving DecidableEq, Repr

/-- The faults a step can stop with: none. Every contract violation the spec names is a transition to PHASE = FAULT,
which is a next state (R196), and no access can be out of range (20_memory.md R61). Safe: nothing ends a run (log
entry 18). -/
inductive Fault
deriving DecidableEq, Repr

/-- The reasons a step can be refused. -/
inductive Refusal
  /-- Raised by an arm of exec for an instruction that has no meaning yet; no arm raises it. Safe: the run stops. -/
  | notModelled (mnemonic : String)
deriving DecidableEq, Repr

/-- The status of a CORE just reset: IDLE, no cause, no overflow (R42). -/
def StatusView.atReset : StatusView := ⟨.idle, .none, false⟩

/-- Working variables all zero: the value log entry 1 names for State.reset. -/
def Vars.zero : Vars := ⟨0, 0, 0, 0, 0, 0, 0, 0⟩

/-- Scratch all zero: the value log entry 1 names for State.reset. -/
def Scratch.zero : Scratch :=
  { vars := Vars.zero, w := Vector.replicate 64 0, t1 := 0, t2 := 0, t := 0 }

/-- The machine right after reset, ready for its first command (R42, R220): PHASE = IDLE, FCAUSE = 0, LEN_OVF = 0,
BUFLEN = 0, BITLEN = 0, BUSY = 0 (log entry 2). For the registers R42 leaves unspecified this value names zero (DESIGN CHOICE, log
entry 1); a reset that a run meets later gives free values instead (Machine/Channel.lean, log
entry 3). -/
def State.reset : State where
  h := Vector.replicate 8 0
  buf := Vector.replicate 64 0
  buflen := 0
  bitlen := 0
  lenOvf := false
  scratch := Scratch.zero
  total := 0
  digest := Vector.replicate 32 0
  phase := .idle
  fcause := .none
  busy := false
  inputs := []
  instant := 0
  left := 0
  settle := ⟨0, 0, 0⟩
  before := StatusView.atReset

end Sys2Proof.Machine
end

