-- ==== Sys2Proof/Machine/Ops.lean ====
section
/-! DEFINITION. The primitives of 00_scope.md R6, the reads and writes of the byte memories (20_memory.md R66, R67),
the loop of the pseudocode, and the fault entry (60_exceptions.md R196). BUF and DIGEST are the CORE's only byte
memories: arrays of 64 and 32 bytes with no address space around them (R60, R71). -/

namespace Sys2Proof.Machine

/-- `ROTR(x, n)`, 0 < n < 32: rotate right (R6). -/
def rotr (x : Word) (n : Nat) : Word := (x >>> n) ||| (x <<< (32 - n))

/-- `SHR(x, n)`, 0 <= n < 32: logical shift right, zeros enter at bit 31 (R6). -/
def shr (x : Word) (n : Nat) : Word := x >>> n

/-- `BE32(b0, b1, b2, b3) = b0 || b1 || b2 || b3`: `b0` is the most significant byte (R6). -/
def be32 (b0 b1 b2 b3 : Byte) : Word := b0 ++ b1 ++ b2 ++ b3

/-- `byte_k(w)`: byte `k` of a word counted from the most significant, `w[31 - 8k : 24 - 8k]` (R6). -/
def byteOfWord (w : Word) (k : Nat) : Byte := w.extractLsb' (24 - 8 * k) 8

/-- Byte `k` of an `n`-byte value counted from the most significant: `v[8(n - k) - 1 : 8(n - k - 1)]` (R67). -/
def byteOf (n : Nat) (v : BitVec (8 * n)) (k : Nat) : Byte := v.extractLsb' (8 * (n - k - 1)) 8

/-- One byte of a byte memory. Every offset a rule forms is in range (R61); an offset beyond the array names no byte,
and this total reading of it, 0, is never used (log entry 8). -/
def readByte {size : Nat} (m : Vector Byte size) (a : Nat) : Byte := m[a]?.getD 0

/-- Write one byte of a byte memory; every offset a rule forms is in range (R61, log entry 8). -/
def writeByte {size : Nat} (m : Vector Byte size) (a : Nat) (v : Byte) : Vector Byte size := m.setIfInBounds a v

/-- The number whose big-endian digits in base 256 are the bytes listed (R62). -/
def bigEndian (bytes : List Byte) : Nat := bytes.foldl (fun acc b => acc * 256 + b.toNat) 0

/-- `MemRead(S, a, n) = S[a] || S[a+1] || ... || S[a+n-1]`, `S[a]` most significant (R66). -/
def memRead {size : Nat} (m : Vector Byte size) (a n : Nat) : BitVec (8 * n) :=
  BitVec.ofNat (8 * n) (bigEndian ((List.range n).map fun j => readByte m (a + j)))

/-- `MemWrite(S, a, n, v)`: `S[a + k] <- v[8(n - k) - 1 : 8(n - k - 1)]` for `k = 0 .. n - 1`, and no other byte (R67). -/
def memWrite {size : Nat} (m : Vector Byte size) (a n : Nat) (v : BitVec (8 * n)) : Vector Byte size :=
  (List.range n).foldl (fun acc j => writeByte acc (a + j) (byteOf n v j)) m

/-- `count` turns of a loop body from index `first` on, in increasing order. -/
def loopFrom {α : Type} (first : Nat) (count : Nat) (body : Nat → α → α) (x : α) : α :=
  match count with
  | 0 => x
  | m + 1 => loopFrom (first + 1) m body (body first x)

/-- `for j = first .. last: body`: inclusive and increasing; no turn when `first > last` (R6, R170). -/
def forLoop {α : Type} (first last : Nat) (body : Nat → α → α) (x : α) : α :=
  loopFrom first (last + 1 - first) body x

/-- `raise Fault(c)` (R196): FCAUSE and PHASE are written and nothing else. No state is saved, there is no handler and
no return: only reset leaves PHASE = FAULT (R198). -/
def raiseFault (c : Cause) (s : State) : State := { s with fcause := c, phase := .fault }

/-- A command accepted in PHASE = FAULT is discarded: it changes no state at all (R199). -/
def discardWord (s : State) : State := s

end Sys2Proof.Machine
end

