-- ==== Sys2Proof/Machine/Operands.lean ====
section
/-! DEFINITION. The operands and effective addresses a command forms (30_encoding.md R95; 20_memory.md R60, R61): the
message byte, the offset in BUF where it goes, the offsets of schedule and digest words, the length in bits. -/

namespace Sys2Proof.Machine

/-- The only immediate, `data[7:0]` of UPDATE, is used as it stands: not extended, scaled or shifted (R95). -/
def immediate (d : Byte) : Byte := d

/-- The effective address of UPDATE's store is the register BUFLEN (R153). -/
def storeOffset (s : State) : Nat := s.buflen.toNat

/-- The offset of word `i` in a byte memory read or written by words (R117, R176): a multiple of 4 (R65). -/
def wordOffset (i : Nat) : Nat := 4 * i

/-- The offset of the length field in the final block (R174; parameter LEN_FIELD). -/
def lengthOffset : Nat := 56

/-- `8 x n` as the bits of the buffered bytes: `n || 0b000`, zero-extended to 64 bits (R171). -/
def bufferedBits (n : BitVec 6) : BitVec 64 := (n ++ 0#3).zeroExtend 64

/-- The pad byte (R172; parameter PAD_BYTE). -/
def padByte : Byte := 0x80

/-- What the length counter grows by when UPDATE compresses a block (R156; parameter CNT_STEP). -/
def blockBits : BitVec 64 := 512

end Sys2Proof.Machine
end

