-- ==== Sys2Proof/Machine/Flags.lean ====
section
/-! DEFINITION. The one flag of the CORE and the conditions its rules test (10_state.md R39): there is no carry,
overflow, zero, sign or parity flag, and 32-bit additions record nothing. -/

namespace Sys2Proof.Machine

/-- `carry64(x, y)`: whether `x + y >= 2^64` (R6). -/
def carry64 (x y : BitVec 64) : Bool := decide (2 ^ 64 ≤ x.toNat + y.toNat)

/-- LEN_OVF after a block boundary: sticky, set when `add64(BITLEN, 512)` carries out of bit 63 (R32, R156). -/
def lenOvfAfterBlock (s : State) : Bool := s.lenOvf || carry64 s.bitlen blockBits

/-- The block-boundary test of UPDATE: BUFLEN = 63 on entry (R154). -/
def blockCompletes (s : State) : Bool := decide (s.buflen = 63)

/-- The path test of FINAL: two padding blocks exactly when `n >= 56` (R172; parameter PAD_SPLIT). -/
def needsTwoBlocks (n : BitVec 6) : Bool := decide (56 ≤ n.toNat)

end Sys2Proof.Machine
end

