-- ==== Sys2Proof/Machine/Compress.lean ====
section
/-! DEFINITION. The compression core: the six word functions, the five steps and the operation COMPRESS
(40_compress.md R110 to R129). COMPRESS is started only by UPDATE and FINAL and runs inside that command (R129). -/

namespace Sys2Proof.Machine

/-- Ch, bitwise choice (R111). -/
def ch (x y z : Word) : Word := (x &&& y) ^^^ (~~~x &&& z)

/-- The shape of the upper-case Sigmas: XOR of three rotations of one word (R113). -/
def xorOfRotations (n0 n1 n2 : Nat) (x : Word) : Word := rotr x n0 ^^^ rotr x n1 ^^^ rotr x n2

/-- The shape of the lower-case sigmas: XOR of two rotations and a logical shift of one word (R114). -/
def xorWithShift (n0 n1 shift : Nat) (x : Word) : Word := rotr x n0 ^^^ rotr x n1 ^^^ shr x shift

/-- Sigma0, written Σ0 in the rules (R113). -/
def bigSigma0 : Word → Word := xorOfRotations 2 13 22

/-- Sigma1, written Σ1 in the rules (R113). -/
def bigSigma1 : Word → Word := xorOfRotations 6 11 25

/-- sigma0, written σ0 in the rules (R114). -/
def smallSigma0 : Word → Word := xorWithShift 7 18 3

/-- sigma1, written σ1 in the rules (R114). -/
def smallSigma1 : Word → Word := xorWithShift 17 19 10

/-- Maj, bitwise majority (R112). -/
def maj (x y z : Word) : Word := (x &&& y) ^^^ (x &&& z) ^^^ (y &&& z)

/-- `W[i]`; every index a step forms is in range (R61). -/
def scheduleWord (w : Vector Word 64) (i : Nat) : Word := w[i]?.getD 0

/-- Step LOAD for one word: `W[t] <- MemRead(BUF, 4t, 4)` (R117). -/
def loadWord (block : Vector Byte 64) (t : Nat) (c : Scratch) : Scratch :=
  { c with w := c.w.setIfInBounds t (memRead block (wordOffset t) 4), t := BitVec.ofNat 7 t }

/-- The recurrence: `add32(sigma1(W[t-2]), W[t-7], sigma0(W[t-15]), W[t-16])` (R118). -/
def recurrence (w2 w7 w15 w16 : Word) : Word :=
  add32 (add32 (add32 (smallSigma1 w2) w7) (smallSigma0 w15)) w16

/-- Step EXPAND for one word (R118). -/
def expandWord (t : Nat) (c : Scratch) : Scratch :=
  { c with
    w := c.w.setIfInBounds t
      (recurrence (scheduleWord c.w (t - 2)) (scheduleWord c.w (t - 7)) (scheduleWord c.w (t - 15))
        (scheduleWord c.w (t - 16)))
    t := BitVec.ofNat 7 t }

/-- The working variables as a copy of H, a from H[0] to h from H[7] (R22, R119). -/
def varsOf (h : Vector Word 8) : Vars := ⟨h[0], h[1], h[2], h[3], h[4], h[5], h[6], h[7]⟩

/-- Step INITV (R119). -/
def initVars (h : Vector Word 8) (c : Scratch) : Scratch := { c with vars := varsOf h }

/-- T1 of a round: `add32(h, Sigma1(e), Ch(e, f, g), K[t], W[t])` (R121). -/
def roundT1 (kt wt : Word) (v : Vars) : Word :=
  add32 (add32 (add32 (add32 v.h (bigSigma1 v.e)) (ch v.e v.f v.g)) kt) wt

/-- T2 of a round: `add32(Sigma0(a), Maj(a, b, c))` (R121). -/
def roundT2 (v : Vars) : Word := add32 (bigSigma0 v.a) (maj v.a v.b v.c)

/-- The simultaneous update of the working variables (R121). -/
def rotateVars (t1 t2 : Word) (v : Vars) : Vars :=
  { h := v.g, g := v.f, f := v.e, e := add32 v.d t1, d := v.c, c := v.b, b := v.a, a := add32 t1 t2 }

/-- Step ROUND t (R121). -/
def roundStep (t : Nat) (c : Scratch) : Scratch :=
  { c with
    t1 := roundT1 (kAt t) (scheduleWord c.w t) c.vars
    t2 := roundT2 c.vars
    vars := rotateVars (roundT1 (kAt t) (scheduleWord c.w t) c.vars) (roundT2 c.vars) c.vars
    t := BitVec.ofNat 7 t }

/-- Step ADD, the feed-forward: each working variable is added back into its word of H (R122). -/
def feedForward (h : Vector Word 8) (v : Vars) : Vector Word 8 :=
  #v[add32 h[0] v.a, add32 h[1] v.b, add32 h[2] v.c, add32 h[3] v.d,
     add32 h[4] v.e, add32 h[5] v.f, add32 h[6] v.g, add32 h[7] v.h]

/-- Steps LOAD and EXPAND: the whole schedule (R117, R118). -/
def buildSchedule (block : Vector Byte 64) (c : Scratch) : Scratch :=
  forLoop 16 63 expandWord (forLoop 0 15 (loadWord block) c)

/-- Steps INITV and ROUND 0 .. 63 (R119, R121). -/
def runRounds (h : Vector Word 8) (c : Scratch) : Scratch :=
  forLoop 0 63 roundStep (initVars h c)

/-- The scratch registers as COMPRESS leaves them, `t` at its terminal value 64 (R24, R123). -/
def compressScratch (h : Vector Word 8) (block : Vector Byte 64) (c : Scratch) : Scratch :=
  { runRounds h (buildSchedule block c) with t := 64 }

/-- COMPRESS (R123): H takes the feed-forward of its own old value; BUF and every other context register are neither
read, but for BUF itself, nor written (R110). -/
def compress (s : State) : State :=
  { s with
    h := feedForward s.h (compressScratch s.h s.buf s.scratch).vars
    scratch := compressScratch s.h s.buf s.scratch }

end Sys2Proof.Machine
end

