-- ==== Sys2Proof/Machine/Ports.lean ====
section
/-! DEFINITION. The output ports as functions of the state (10_state.md R37, R45; 20_memory.md R70; 30_encoding.md R92).
Reading them changes nothing (R68). -/

namespace Sys2Proof.Machine

/-- The code of a phase on the port (R35). -/
def phaseCode : Phase → BitVec 2
  | .idle => 0b00
  | .active => 0b01
  | .done => 0b10
  | .fault => 0b11

/-- The cause code on the port (R190). -/
def causeCode : Cause → BitVec 3
  | .none => 0
  | .illegalCmd => 1
  | .updateAfterFinal => 2
  | .finalAfterFinal => 3
  | .updateNoContext => 4
  | .finalNoContext => 5

/-- The values of the working variables. -/
def varsValues (v : Vars) : List Nat :=
  [v.a.toNat, v.b.toNat, v.c.toNat, v.d.toNat, v.e.toNat, v.f.toNat, v.g.toNat, v.h.toNat]

/-- The values of the scratch registers. -/
def scratchValues (c : Scratch) : List Nat :=
  varsValues c.vars ++ c.w.toList.map BitVec.toNat ++ [c.t1.toNat, c.t2.toNat, c.t.toNat]

/-- The values of all registers of the CORE but BUSY, stale and dead ones too: what a free value may depend on (R240,
93_implementation_defined.md U22). -/
def registerValues (s : State) : List Nat :=
  s.h.toList.map BitVec.toNat ++ s.buf.toList.map BitVec.toNat ++ scratchValues s.scratch ++
    s.digest.toList.map BitVec.toNat ++ [s.buflen.toNat, s.bitlen.toNat, s.lenOvf.toNat, s.total.toNat,
      (phaseCode s.phase).toNat, (causeCode s.fcause).toNat]

/-- The three status registers as they stand. -/
def statusOf (s : State) : StatusView := ⟨s.phase, s.fcause, s.lenOvf⟩

/-- With how many cycles left a port turns to the new value. -/
def settlePoint (p : StatusPort) (s : State) : Nat :=
  match p with
  | .phase => s.settle.phase
  | .fcause => s.settle.fcause
  | .lenOvf => s.settle.lenOvf

/-- Whether a status port shows the register: always while cmd_ready = 1; during a command it turns from the old to the
new value at a cycle the spec leaves open (R45, R234, U13; log entry 6). -/
def portSettled (p : StatusPort) (s : State) : Bool :=
  !s.busy || decide (s.left ≤ settlePoint p s)

/-- The phase on the port. -/
def shownPhase (s : State) : Phase := if portSettled .phase s then s.phase else s.before.phase

/-- The cause on the port. -/
def shownFcause (s : State) : Cause := if portSettled .fcause s then s.fcause else s.before.fcause

/-- LEN_OVF on the port. -/
def shownLenOvf (s : State) : Bool := if portSettled .lenOvf s then s.lenOvf else s.before.lenOvf

/-- cmd_ready = 1 exactly when BUSY = 0 (R37). -/
def cmdReady (s : State) : Bool := !s.busy

/-- digest_valid = 1 exactly when PHASE = DONE and BUSY = 0 (R37). -/
def digestValid (s : State) : Bool := decide (s.phase = .done) && !s.busy

/-- fault = 1 exactly when PHASE = FAULT (R37, R92). During a command the model reads this of the phase the port shows
at that cycle, which is its choice (log entry 6). -/
def faultPort (s : State) : Bool := decide (shownPhase s = .fault)

/-- DIGEST on 256 wires, byte 0 on top: `DIGEST[j] = digest[255 - 8j : 248 - 8j]` (R70). -/
def packDigest (d : Vector Byte 32) : BitVec 256 := BitVec.ofNat 256 (bigEndian d.toList)

/-- The digest port: DIGEST while digest_valid = 1, otherwise any value (R34, R197, U11, U12; log entry 4). -/
def digestPort (s : State) : BitVec 256 :=
  if digestValid s then packDigest s.digest else Config.freeBits .digestPort 256 s.instant (registerValues s) 0

/-- The output ports (R92). -/
structure Outputs where
  cmdReady : Bool
  phase : BitVec 2
  fcause : BitVec 3
  lenOvf : Bool
  fault : Bool
  digestValid : Bool
  digest : BitVec 256
deriving DecidableEq, Repr

/-- What the host can observe, and nothing more (R45): H, BUF, BUFLEN, BITLEN, TOTAL and the scratch have no output. -/
def outputs (s : State) : Outputs where
  cmdReady := cmdReady s
  phase := phaseCode (shownPhase s)
  fcause := causeCode (shownFcause s)
  lenOvf := shownLenOvf s
  fault := faultPort s
  digestValid := digestValid s
  digest := digestPort s

end Sys2Proof.Machine
end

