-- ==== Sys2Proof/Machine/Channel.lean ====
section
/-! DEFINITION. The command channel and the reset input at one instant (30_encoding.md R91, R92;
70_reset_and_hazards.md R220 to R224, R238, R239). The source of commands is the list of input samples in State. -/

namespace Sys2Proof.Machine

/-- A sample from the pins: rst is asserted when its pin is at the active level RESET_STYLE names (R221). -/
def PortSample.fromPins (style : ResetStyle) (clk rstPin : Bool) (width : Nat) (cmdValid : Bool) (cmd : CmdWord) :
    PortSample :=
  ⟨clk, if rstPin = style.activeHigh then some width else none, cmdValid, cmd⟩

/-- What the input ports show at the coming instant; idle when the host has nothing more to say (R91, log entry 7). -/
def nextSample (s : State) : PortSample := s.inputs.headD PortSample.idle

/-- The instant itself: the sample is used up and the instant counted. -/
def takeSample (s : State) : State := { s with inputs := s.inputs.tail, instant := s.instant + 1 }

/-- Whether an assertion of rst for `width` so far takes effect: from the minimum width on it does, and whether a
narrower one does is open (R221, log entry 13). -/
def wideEnough (width : Nat) (s : State) : Bool :=
  decide (Config.resetStyle.minWidth ≤ width) || Config.narrowResetTakes s.instant (registerValues s)

/-- Whether reset takes effect at the coming instant: at a clock edge at which it is asserted, and, where RESET_STYLE is
asynchronous, at an instant between two edges too (R220, R221). -/
def resetTakes (s : State) : Bool :=
  match (nextSample s).rst with
  | none => false
  | some width => ((nextSample s).clk || Config.resetStyle.asynchronous) && wideEnough width s

/-- A command word put on the channel for the coming edge, with the CORE ready to take it. -/
def placeCommand (w : CmdWord) (s : State) : State :=
  { s with busy := false, left := 0, inputs := PortSample.present w :: s.inputs.tail }

/-- Scratch registers of which nothing is known (R42, U9). -/
def unspecifiedScratch (instant : Nat) (data : List Nat) : Scratch where
  vars := varsOf (tabulate 8 (Config.freeBits .workingVars 32 instant data))
  w := tabulate 64 (Config.freeBits .schedule 32 instant data)
  t1 := Config.freeBits .temp1 32 instant data 0
  t2 := Config.freeBits .temp2 32 instant data 0
  t := Config.freeBits .roundIndex 7 instant data 0

/-- Reset takes effect (R220, R223): the control registers take their reset values, whatever was in flight is
abandoned, and every other register becomes unspecified, a free value each (log entry 3). BUSY = 1 until the CORE is
ready again, at most T_RESET cycles after release (R42, R221). -/
def resetEvent (s : State) : State :=
  { s with
    h := tabulate 8 (Config.freeBits .hashState 32 s.instant (registerValues s))
    buf := tabulate 64 (Config.freeBits .buffer 8 s.instant (registerValues s))
    buflen := 0
    bitlen := 0
    lenOvf := false
    scratch := unspecifiedScratch s.instant (registerValues s)
    total := Config.freeBits .total 64 s.instant (registerValues s) 0
    digest := tabulate 32 (Config.freeBits .digest 8 s.instant (registerValues s))
    phase := .idle
    fcause := .none
    busy := true
    left := Config.resetLatency s.instant (registerValues s)
    before := StatusView.atReset }

/-- A clock edge at which reset is asserted but does not take effect, being too narrow: no command is accepted and
cmd_ready = 0 (R221). R221 bounds the wait for readiness after release by T_RESET and says no more. The rest is the
model's choice (log entry 13): an idle CORE waits a free number of cycles between 1 and T_RESET, and a command in flight
goes on, is not complete before rst is released, and then takes the cycles it has left, even if more than T_RESET. -/
def holdEdge (s : State) : State :=
  if s.busy then { s with left := max 1 (s.left - 1) }
  else { s with busy := true, left := Config.resetLatency s.instant (registerValues s), before := statusOf s }

/-- An edge while BUSY = 1: one cycle less to go; BUSY falls when none is left (R40, R91, R238). No command is taken. -/
def flightEdge (s : State) : State :=
  if s.left ≤ 1 then { s with busy := false, left := 0 } else { s with left := s.left - 1 }

/-- The latency case of an accepted word (R239): a faulting or discarded command is T_FAULT. -/
def latencyCase (d : Decoded) (s : State) : LatencyCase :=
  match d with
  | .reserved _ => .tFault
  | .command .init => if s.phase = .fault then .tFault else .tInit
  | .command (.update _) =>
    if s.phase = .active then (if blockCompletes s then .tUpdateCmp else .tUpdate) else .tFault
  | .command .final =>
    if s.phase = .active then (if needsTwoBlocks s.buflen then .tFinal2 else .tFinal1) else .tFault

/-- What the timing of an accepted word may depend on: the word and the values of all registers (R240, U22). -/
def flightData (w : CmdWord) (s : State) : List Nat := w.toNat :: registerValues s

/-- Cycles until the word accepted in this state is complete: the latency of its case (R239; log entry 5). -/
def latencyOf (w : CmdWord) (s : State) : Nat :=
  Config.latency (latencyCase (decode w) s) s.instant (flightData w s)

/-- When the status ports turn, for the word accepted in this state (R45, R234; log entry 6). -/
def settlePoints (w : CmdWord) (s : State) : SettlePoints where
  phase := Config.settlesWithLeft .phase s.instant (flightData w s)
  fcause := Config.settlesWithLeft .fcause s.instant (flightData w s)
  lenOvf := Config.settlesWithLeft .lenOvf s.instant (flightData w s)

/-- The word `w`, accepted in the state `old`, is in flight for its latency (R40, R91, R239). -/
def beginFlight (old : State) (w : CmdWord) (s : State) : State :=
  { s with busy := true, left := latencyOf w old, settle := settlePoints w old, before := statusOf old }

end Sys2Proof.Machine
end

