-- ==== Sys2Proof/Machine/Stream.lean ====
section
/-! DEFINITION. The streaming accumulator: the meanings of INIT and UPDATE (41_stream.md R150 to R160). -/

namespace Sys2Proof.Machine

/-- The effect of INIT (R151): a fresh context. BUF is not cleared, and DIGEST is not written (R27, R43). -/
def createContext (s : State) : State :=
  { s with h := ivTable, buflen := 0, bitlen := 0, lenOvf := false, phase := .active }

/-- Step 1 of UPDATE: `MemWrite(BUF, BUFLEN, 1, d)` (R153). -/
def storeMessageByte (d : Byte) (s : State) : State :=
  { s with buf := memWrite s.buf (storeOffset s) 1 (immediate d) }

/-- Step 4 of UPDATE and the emptying of the buffer, at a block boundary (R155, R156): the counter grows by 512, a carry
sets LEN_OVF, and BUFLEN returns to 0. The 64 bytes stay in BUF as stale data. -/
def closeBlock (s : State) : State :=
  { s with lenOvf := lenOvfAfterBlock s, bitlen := add64 s.bitlen blockBits, buflen := 0 }

/-- BUFLEN advances by one inside a block (R152). -/
def advanceBuflen (s : State) : State := { s with buflen := s.buflen + 1 }

/-- The effect of UPDATE in PHASE = ACTIVE (R152 to R156). -/
def appendByte (d : Byte) (s : State) : State :=
  if blockCompletes s then closeBlock (compress (storeMessageByte d s))
  else advanceBuflen (storeMessageByte d s)

/-- INIT (R151): legal in IDLE, ACTIVE and DONE; discarded in FAULT (R199). -/
def execInit (s : State) : Host.Outcome State Fault Refusal :=
  match s.phase with
  | .fault => .next (discardWord s)
  | .idle => .next (createContext s)
  | .active => .next (createContext s)
  | .done => .next (createContext s)

/-- UPDATE d (R152): executes in ACTIVE, raises Fault(4) in IDLE and Fault(2) in DONE (R190, R191, R193), is discarded in
FAULT (R199). -/
def execUpdate (d : Byte) (s : State) : Host.Outcome State Fault Refusal :=
  match s.phase with
  | .fault => .next (discardWord s)
  | .idle => .next (raiseFault .updateNoContext s)
  | .active => .next (appendByte d s)
  | .done => .next (raiseFault .updateAfterFinal s)

end Sys2Proof.Machine
end

