-- ==== Sys2Proof/Machine/Finalize.lean ====
section
/-! DEFINITION. The finalizer: the meaning of FINAL (42_finalize.md R170 to R182). -/

namespace Sys2Proof.Machine

/-- Step 1: `TOTAL <- add64(BITLEN, 8 x n)`, before any padding byte and any COMPRESS (R171). -/
def latchTotal (n : BitVec 6) (s : State) : State :=
  { s with total := add64 s.bitlen (bufferedBits n) }

/-- Step 2, the pad byte: `MemWrite(BUF, n, 1, 0x80)` (R172). -/
def storePadByte (n : BitVec 6) (s : State) : State :=
  { s with buf := memWrite s.buf n.toNat 1 padByte }

/-- One turn of the zero fill: `MemWrite(BUF, j, 1, 0x00)` (R172). -/
def writeZero {size : Nat} (j : Nat) (m : Vector Byte size) : Vector Byte size := memWrite m j 1 (0 : Byte)

/-- Zero fill: `for j = first .. last: MemWrite(BUF, j, 1, 0x00)` (R172, R173). -/
def zeroFill (first last : Nat) (s : State) : State :=
  { s with buf := forLoop first last writeZero s.buf }

/-- Step 4, the length field: `MemWrite(BUF, 56, 8, TOTAL)` (R174). -/
def storeLength (s : State) : State :=
  { s with buf := memWrite s.buf lengthOffset 8 s.total }

/-- One turn of the serialiser: `MemWrite(DIGEST, 4i, 4, H[i])` (R176). -/
def writeHashWord (h : Vector Word 8) (i : Nat) (out : Vector Byte 32) : Vector Byte 32 :=
  memWrite out (wordOffset i) 4 (h[i]?.getD 0)

/-- Step 6 for all of H: `for i = 0 .. 7: MemWrite(DIGEST, 4i, 4, H[i])` (R176). -/
def serialise (h : Vector Word 8) (out : Vector Byte 32) : Vector Byte 32 :=
  forLoop 0 7 (writeHashWord h) out

/-- Step 6: DIGEST takes the serialised H (R176). -/
def writeDigest (s : State) : State := { s with digest := serialise s.h s.digest }

/-- Step 7: `PHASE <- DONE`, after all of DIGEST is written (R177). -/
def enterDone (s : State) : State := { s with phase := .done }

/-- Steps 2 and 3 (R172, R173): the pad byte and the zero fill; in the two-block case the first padding block is
compressed and offsets 0 to 55 are cleared for the second. -/
def padBuffer (n : BitVec 6) (s : State) : State :=
  if needsTwoBlocks n then zeroFill 0 55 (compress (zeroFill (n.toNat + 1) 63 (storePadByte n s)))
  else zeroFill (n.toNat + 1) 55 (storePadByte n s)

/-- The effect of FINAL in PHASE = ACTIVE (R170): `n` is BUFLEN as it stands when FINAL is accepted (R171). -/
def finishMessage (s : State) : State :=
  enterDone (writeDigest (compress (storeLength (padBuffer s.buflen (latchTotal s.buflen s)))))

/-- FINAL (R170): executes in ACTIVE, raises Fault(5) in IDLE and Fault(3) in DONE (R190, R192, R193), is discarded in
FAULT (R199). -/
def execFinal (s : State) : Host.Outcome State Fault Refusal :=
  match s.phase with
  | .fault => .next (discardWord s)
  | .idle => .next (raiseFault .finalNoContext s)
  | .active => .next (finishMessage s)
  | .done => .next (raiseFault .finalAfterFinal s)

end Sys2Proof.Machine
end

