-- ==== Sys2Proof/Machine/Dispatch.lean ====
section
/-! DEFINITION. Which meaning each command has: one arm per constructor of Instr (30_encoding.md R90, R94). -/

namespace Sys2Proof.Machine

def exec (i : Instr) (s : State) : Host.Outcome State Fault Refusal :=
  match i with
  | .init => Sys2Proof.Machine.execInit s
  | .update d => Sys2Proof.Machine.execUpdate d s
  | .final => Sys2Proof.Machine.execFinal s

end Sys2Proof.Machine
end

