-- ==== Sys2Proof/Machine/Accept.lean ====
section
/-! DEFINITION. Accepting a command word, and one instant at the ports of the CORE (30_encoding.md R91, R94). -/

namespace Sys2Proof.Machine

/-- A reserved word: Fault(1) in IDLE, ACTIVE and DONE, discarded in FAULT (R94, R97, R194, R199). -/
def rejectReserved (s : State) : State :=
  if s.phase = .fault then discardWord s else raiseFault .illegalCmd s

/-- Decoding and dispatch of an accepted word (R94): the priority is FAULT, then reserved, then the phase test (R203),
and each meaning tests FAULT first. -/
def dispatchWord (w : CmdWord) (s : State) : Host.Outcome State Fault Refusal :=
  match decode w with
  | .command i => exec i s
  | .reserved _ => .next (rejectReserved s)

/-- Apply a function to the next state, if there is one. -/
def onNext (f : State → State) : Host.Outcome State Fault Refusal → Host.Outcome State Fault Refusal
  | .next s => .next (f s)
  | .fault r => .fault r
  | .refused r => .refused r

/-- A word is accepted: it is dispatched, and it is in flight from this edge on (R91). The
registers take their new values at this edge, and the latency counts down after it (log entry 11). -/
def acceptWord (w : CmdWord) (s : State) : Host.Outcome State Fault Refusal :=
  onNext (beginFlight s w) (dispatchWord w s)

/-- The effect of a list of accepted commands, left to right (20_memory.md R74). -/
def execAll : List Instr → State → Host.Outcome State Fault Refusal
  | [], s => .next s
  | i :: rest, s =>
    match exec i s with
    | .next t => execAll rest t
    | .fault r => .fault r
    | .refused r => .refused r

/-- One instant at the input ports. Reset wins over everything (R203, R223). Between two clock edges nothing else can
happen (R92). At an edge at which rst is asserted no command is accepted (R221); otherwise a command is accepted exactly
when cmd_valid = 1 and cmd_ready = 1 (R91), and an idle edge changes no register (R91). -/
def advance (s : State) : Host.Outcome State Fault Refusal :=
  if resetTakes s then .next (resetEvent (takeSample s))
  else if !(nextSample s).clk then .next (takeSample s)
  else if (nextSample s).rst.isSome then .next (holdEdge (takeSample s))
  else if s.busy then .next (flightEdge (takeSample s))
  else if (nextSample s).cmdValid then acceptWord (nextSample s).cmd (takeSample s)
  else .next (takeSample s)

end Sys2Proof.Machine
end

