-- ==== Sys2Proof/Machine/Step.lean ====
section
/-! DEFINITION. One step of the machine: one instant at its ports (30_encoding.md R92, 70_reset_and_hazards.md R221). -/

namespace Sys2Proof.Machine

/-- One step: a rising edge of clk, at which every state change but an asynchronous reset happens, or an instant between
two edges (R92, R221). -/
def step (s : State) : Host.Outcome State Fault Refusal := advance s

/-- The state in which the coming edge accepts the command word of a table row: the word is on the command channel and
BUSY = 0. The CORE fetches nothing and holds no program (10_state.md R38; log entry 9). -/
def State.withFetchWord (s : State) (nbits w : Nat) : State :=
  placeCommand (BitVec.ofNat 10 (tableBits nbits w)) s

end Sys2Proof.Machine
end

