-- ==== Sys2Proof/Machine/Assembler.lean ====
section
/-! DEFINITION. Reading the textual form of a command sequence (30_encoding.md R99, R100): one command per line,
mnemonics in capitals, `#` starts a comment. Text is a list of characters; what does not read is none.
What the rules leave open about the text is log entry 10. -/

namespace Sys2Proof.Machine

/-- Leave out leading blanks. -/
def skipBlanks (cs : List Char) : List Char := cs.dropWhile fun c => c == ' ' || c == '\t'

/-- Nothing but blanks and a comment is left of the line (R99). -/
def lineEnds (cs : List Char) : Bool :=
  match skipBlanks cs with
  | [] => true
  | c :: _ => c == '#'

/-- The text after a word, if the line begins with the word. -/
def afterWord (word cs : List Char) : Option (List Char) :=
  if word.isPrefixOf cs then some (cs.drop word.length) else none

/-- The value of a hexadecimal digit. -/
def hexDigit (c : Char) : Option Nat :=
  if '0'.toNat ≤ c.toNat ∧ c.toNat ≤ '9'.toNat then some (c.toNat - '0'.toNat)
  else if 'a'.toNat ≤ c.toNat ∧ c.toNat ≤ 'f'.toNat then some (c.toNat - 'a'.toNat + 10)
  else if 'A'.toNat ≤ c.toNat ∧ c.toNat ≤ 'F'.toNat then some (c.toNat - 'A'.toNat + 10)
  else none

/-- A decimal number at the start of the text and what follows it; none when there is no digit. -/
def readDecimal (cs : List Char) : Option (Nat × List Char) :=
  let digits := cs.takeWhile Char.isDigit
  if digits.isEmpty then none
  else some (digits.foldl (fun acc c => acc * 10 + (c.toNat - '0'.toNat)) 0, cs.dropWhile Char.isDigit)

/-- The operand of UPDATE: `0xNN`, a decimal number, or one character in single quotes (R99). -/
def readOperand (cs : List Char) : Option (Operand × List Char) :=
  match cs with
  | '\'' :: c :: '\'' :: rest => some (.character c, rest)
  | '0' :: 'x' :: x :: y :: rest =>
    match hexDigit x, hexDigit y with
    | some hi, some lo => some (.number (16 * hi + lo), rest)
    | _, _ => none
  | _ => (readDecimal cs).map fun p => (.number p.1, p.2)

/-- The characters up to a closing double quote as bytes, one printable ASCII character each (R100). -/
def readQuoted : List Char → Option (List Byte × List Char)
  | [] => none
  | c :: rest =>
    if c == '"' then some ([], rest)
    else if 0x20 ≤ c.toNat ∧ c.toNat ≤ 0x7E then
      (readQuoted rest).map fun p => (BitVec.ofNat 8 c.toNat :: p.1, p.2)
    else none

/-- Pairs of hexadecimal digits up to a closing double quote, as bytes left to right (R100). -/
def readHexQuoted : List Char → Option (List Byte × List Char)
  | [] => none
  | [c] => if c == '"' then some ([], []) else none
  | c :: d :: rest =>
    if c == '"' then some ([], d :: rest)
    else
      match hexDigit c, hexDigit d with
      | some hi, some lo => (readHexQuoted rest).map fun p => (BitVec.ofNat 8 (16 * hi + lo) :: p.1, p.2)
      | _, _ => none

/-- A byte string: `"s"`, or `x"hh..hh"` (R100). -/
def readBytes (cs : List Char) : Option (List Byte × List Char) :=
  match cs with
  | '"' :: rest => readQuoted rest
  | 'x' :: '"' :: rest => readHexQuoted rest
  | _ => none

/-- Accept what was read if the line ends after it. -/
def endOfLine {α : Type} (p : α × List Char) : Option α := if lineEnds p.2 then some p.1 else none

/-- The operand after a mnemonic: at least one blank, then what `read` reads, then the end of the line. -/
def readArgument {α : Type} (read : List Char → Option (α × List Char)) (cs : List Char) : Option α :=
  match cs with
  | c :: _ => if c == ' ' || c == '\t' then (read (skipBlanks cs)).bind endOfLine else none
  | [] => none

/-- One line: `some none` is a blank or comment line, `none` is text that does not read (R99, R100). -/
def readLine (cs : List Char) : Option (Option SourceLine) :=
  let t := skipBlanks cs
  if lineEnds t then some none
  else
    match afterWord ['U', 'P', 'D', 'A', 'T', 'E', 'S'] t with
    | some rest => (readArgument readBytes rest).map fun bs => some (.updates bs)
    | none =>
      match afterWord ['U', 'P', 'D', 'A', 'T', 'E'] t with
      | some rest => (readArgument readOperand rest).map fun d => some (.update d)
      | none =>
        match afterWord ['H', 'A', 'S', 'H'] t with
        | some rest => (readArgument readBytes rest).map fun bs => some (.hash bs)
        | none =>
          match afterWord ['W', 'A', 'I', 'T', 'D', 'I', 'G', 'E', 'S', 'T'] t with
          | some rest => if lineEnds rest then some (some .waitDigest) else none
          | none =>
            match afterWord ['I', 'N', 'I', 'T'] t with
            | some rest => if lineEnds rest then some (some .init) else none
            | none =>
              match afterWord ['F', 'I', 'N', 'A', 'L'] t with
              | some rest => if lineEnds rest then some (some .final) else none
              | none => none

/-- A program: its lines in order, blank and comment lines left out; none when a line does not read (R99). -/
def readProgram : List (List Char) → Option (List SourceLine)
  | [] => some []
  | l :: rest =>
    match readLine l, readProgram rest with
    | some (some x), some xs => some (x :: xs)
    | some none, some xs => some xs
    | _, _ => none

/-- The command words of a program whose text reads and is well-formed (R96, R99, R100). -/
def assemble (text : List (List Char)) : Option (List CmdWord) :=
  match readProgram text with
  | some lines => if programWf lines then some ((programCommands lines).map encode) else none
  | none => none

end Sys2Proof.Machine
end

