-- ==== Sys2Proof/Machine/Reference.lean ====
section
/-! DEFINITION. The mathematical functions the rules name, written without the registers of the CORE: `cmp(H, B)`
(40_compress.md R128), the padded message and the padding blocks (42_finalize.md R172 to R179), and SHA-256 of a
message (00_scope.md R2). Claims compare the machine with these. -/

namespace Sys2Proof.Machine

/-- The 16 big-endian words of a block (20_memory.md R62 item 1, R117). -/
def blockWords (block : Vector Byte 64) : List Word :=
  (List.range 16).map fun i =>
    be32 (readByte block (4 * i)) (readByte block (4 * i + 1)) (readByte block (4 * i + 2)) (readByte block (4 * i + 3))

/-- One more schedule word, from the last 16 (R118; a sliding window is all it needs, R23). -/
def extendSchedule (ws : List Word) : List Word :=
  ws ++ [recurrence (ws.getD (ws.length - 2) 0) (ws.getD (ws.length - 7) 0) (ws.getD (ws.length - 15) 0)
    (ws.getD (ws.length - 16) 0)]

/-- The 64 schedule words of a block (R117, R118). -/
def scheduleOf (block : Vector Byte 64) : List Word := extendSchedule^[48] (blockWords block)

/-- One round as a map of the working variables (R121, R126). -/
def roundVars (kt wt : Word) (v : Vars) : Vars := rotateVars (roundT1 kt wt v) (roundT2 v) v

/-- `cmp(H, B)`: the new state as a function of the old state and the block (R128). -/
def cmpBlock (h : Vector Word 8) (block : Vector Byte 64) : Vector Word 8 :=
  feedForward h ((kTable.zip (scheduleOf block)).foldl (fun v p => roundVars p.1 p.2 v) (varsOf h))

/-- A length as 8 big-endian bytes, modulo 2^64 (R174, R181). -/
def lengthBytes (bits : Nat) : List Byte :=
  (List.range 8).map fun i => BitVec.ofNat 8 (bits / 2 ^ (8 * (7 - i)))

/-- How many zero bytes the padding has: `(55 - n) mod 64` with `n = L mod 64` (R179). -/
def padZeros (len : Nat) : Nat := (119 - len % 64) % 64

/-- The padded message: M, 0x80, zeros, the bit length as 8 bytes (R179). -/
def padMessage (m : List Byte) : List Byte :=
  m ++ (padByte :: (List.replicate (padZeros m.length) (0 : Byte) ++ lengthBytes (8 * m.length)))

/-- The whole 64-byte blocks of a byte string, in order (R157, R179). -/
def blocksOf (bytes : List Byte) : List (Vector Byte 64) :=
  (List.range (bytes.length / 64)).map fun j => tabulate 64 fun i => bytes.getD (64 * j + i) 0

/-- The 32 bytes of a hash state, most significant byte of each word first (R34, R176). -/
def digestOf (h : Vector Word 8) : Vector Byte 32 :=
  tabulate 32 fun j => byteOfWord (h[j / 4]?.getD 0) (j % 4)

/-- SHA-256 of a message of whole bytes (R2, R179): cmp block by block from IV over the padded message. -/
def sha256 (m : List Byte) : Vector Byte 32 := digestOf ((blocksOf (padMessage m)).foldl cmpBlock ivTable)

/-- The single padding block of FINAL when `n <= 55` (R172, R174): the remainder, 0x80, zeros, the length. -/
def onlyPadBlock (buf : Vector Byte 64) (n : Nat) (total : BitVec 64) : Vector Byte 64 :=
  tabulate 64 fun j =>
    if j < n then readByte buf j else if j = n then 0x80 else if j < 56 then 0 else byteOf 8 total (j - 56)

/-- The first padding block of FINAL when `n >= 56` (R172): the remainder, 0x80, zeros. -/
def firstPadBlock (buf : Vector Byte 64) (n : Nat) : Vector Byte 64 :=
  tabulate 64 fun j => if j < n then readByte buf j else if j = n then 0x80 else 0

/-- The second padding block of FINAL when `n >= 56` (R173, R174): 56 zeros and the length. -/
def secondPadBlock (total : BitVec 64) : Vector Byte 64 :=
  tabulate 64 fun j => if j < 56 then 0 else byteOf 8 total (j - 56)

/-- Whether no number from 2 to `n - 1` divides `n`, for `n >= 2`. -/
def isPrime (n : Nat) : Bool := decide (2 ≤ n) && (List.range n).all fun d => decide (d < 2) || decide (n % d ≠ 0)

/-- The primes below a bound, in order (R115, R116). -/
def primesBelow (bound : Nat) : List Nat := (List.range bound).filter isPrime

end Sys2Proof.Machine
end

