-- ==== Sys2Proof/Safety.lean ====
section
/-! DEFINITION. What a safe run is: the invariant of the state, the host's side of the contract
(70_reset_and_hazards.md R225 to R237), and when a digest may be trusted. -/

namespace Sys2Proof.Machine

/-- The invariant of the machine between its steps. -/
structure Inv (s : State) : Prop where
  /-- FCAUSE = 0 exactly when PHASE is not FAULT (10_state.md R36). -/
  cause : s.fcause = .none ↔ s.phase ≠ .fault
  /-- BITLEN is always a multiple of 512 (R30). -/
  blocks : s.bitlen.toNat % 512 = 0
  /-- BUSY = 1 exactly while cycles are left (R40). -/
  flight : s.busy = true ↔ s.left ≠ 0
  /-- What a port may still show: a fault, once shown, is there to stay (R234). -/
  sticky : s.before.phase = .fault → s.busy = true → s.phase = .fault

/-- A state is safe when no contract violation has been detected (60_exceptions.md R211). -/
def safe (s : State) : Bool := decide (s.phase ≠ .fault)

/-- Whether the coming instant accepts the command on the channel (R91): a clock edge with rst not asserted,
cmd_valid = 1 and cmd_ready = 1. -/
def accepts (s : State) : Bool :=
  (nextSample s).clk && (nextSample s).rst.isNone && !s.busy && (nextSample s).cmdValid

/-- Whether a command is on the channel at the coming instant and still waits after it: it is presented, the instant
does not accept it, and no reset takes effect, at which it would be lost (R223, R230; log entry 20). -/
def commandWaits (s : State) : Bool := (nextSample s).cmdValid && !accepts s && !resetTakes s

/-- The host holds a command it has presented until the edge at which it is accepted (R230): while it waits, the sample
after this one shows it again, whether BUSY = 1, rst is asserted, or the instant is no clock edge. -/
def hostHolds (s : State) : Bool :=
  !commandWaits s ||
    ((nextSample (takeSample s)).cmdValid && decide ((nextSample (takeSample s)).cmd = (nextSample s).cmd))

/-- A message the CORE hashes to its SHA-256 digest: fewer than 2^61 bytes (R2, R159, R233). -/
def messageFits (m : List Byte) : Prop := m.length < 2 ^ 61

/-- The host may read and trust the digest: digest_valid = 1 and len_ovf = 0 (R225 step 5, R231). -/
def digestTrusted (s : State) : Bool := (outputs s).digestValid && !(outputs s).lenOvf

/-- The next `n` samples are clock edges at which rst is not asserted. -/
def quietFor (n : Nat) (s : State) : Prop := ∀ p ∈ s.inputs.take n, p.clk = true ∧ p.rst = none

end Sys2Proof.Machine
end

