-- ==== Sys2Proof/Certificates/Slice0/Obligations.lean ====
section
/-! DEFINITION. The statements for the provers. Each docstring names the rule of spec/ it formalises. A statement that
says `t = { s with ... }` with only some fields written says that every other field of the state is unchanged. -/

open Sys2Proof Sys2Proof.Machine

/-! ## Word functions and constants -/

/-- R111: Ch is bitwise choice, with the rule's formula, corner cases and example. -/
def Obligations.ChChoosesBitwise : Prop :=
  (∀ x y z : Word, ch x y z = (x &&& y) ^^^ (~~~x &&& z)) ∧
  (∀ (x y z : Word) (i : Nat), i < 32 →
    (ch x y z).getLsbD i = if x.getLsbD i then y.getLsbD i else z.getLsbD i) ∧
  (∀ y z : Word, ch 0 y z = z ∧ ch 0xFFFFFFFF y z = y) ∧
  (∀ x y : Word, ch x y y = y) ∧
  ch 0x510e527f 0x9b05688c 0x1f83d9ab = 0x1f85c98c

/-- R112: Maj is the bitwise majority of its three operands, symmetric in them. -/
def Obligations.MajTakesMajority : Prop :=
  (∀ x y z : Word, maj x y z = (x &&& y) ^^^ (x &&& z) ^^^ (y &&& z)) ∧
  (∀ (x y z : Word) (i : Nat), i < 32 →
    (maj x y z).getLsbD i =
      decide (2 ≤ (x.getLsbD i).toNat + (y.getLsbD i).toNat + (z.getLsbD i).toNat)) ∧
  (∀ x z : Word, maj x x z = x) ∧
  (∀ y z : Word, maj 0 y z = y &&& z ∧ maj 0xFFFFFFFF y z = y ||| z) ∧
  (∀ x y z : Word, maj x y z = maj y x z ∧ maj x y z = maj x z y) ∧
  maj 0x6a09e667 0xbb67ae85 0x3c6ef372 = 0x3a6fe667

/-- R113: Sigma0 and Sigma1 are XORs of three rotations, bit by bit, with the rule's corner cases and examples. -/
def Obligations.BigSigmasRotate : Prop :=
  (∀ (x : Word) (i : Nat), i < 32 →
    (bigSigma0 x).getLsbD i =
      (x.getLsbD ((i + 2) % 32) ^^ x.getLsbD ((i + 13) % 32) ^^ x.getLsbD ((i + 22) % 32)) ∧
    (bigSigma1 x).getLsbD i =
      (x.getLsbD ((i + 6) % 32) ^^ x.getLsbD ((i + 11) % 32) ^^ x.getLsbD ((i + 25) % 32))) ∧
  bigSigma0 0 = 0 ∧ bigSigma1 0 = 0 ∧
  bigSigma0 0xFFFFFFFF = 0xFFFFFFFF ∧ bigSigma1 0xFFFFFFFF = 0xFFFFFFFF ∧
  bigSigma0 0x00000001 = 0x40080400 ∧ bigSigma1 0x00000001 = 0x04200080 ∧
  bigSigma0 0x6a09e667 = 0xce20b47e ∧ bigSigma1 0x510e527f = 0x3587272b

/-- R114: sigma0 and sigma1 are XORs of two rotations and a logical shift, whose shifted-out bits are lost. -/
def Obligations.SmallSigmasRotateAndShift : Prop :=
  (∀ (x : Word) (i : Nat), i < 32 →
    (smallSigma0 x).getLsbD i =
      (x.getLsbD ((i + 7) % 32) ^^ x.getLsbD ((i + 18) % 32) ^^ (decide (i + 3 < 32) && x.getLsbD (i + 3))) ∧
    (smallSigma1 x).getLsbD i =
      (x.getLsbD ((i + 17) % 32) ^^ x.getLsbD ((i + 19) % 32) ^^ (decide (i + 10 < 32) && x.getLsbD (i + 10)))) ∧
  smallSigma0 0 = 0 ∧ smallSigma1 0 = 0 ∧
  smallSigma0 0xFFFFFFFF = 0x1FFFFFFF ∧ smallSigma1 0xFFFFFFFF = 0x003FFFFF ∧
  smallSigma0 0x00000001 = 0x02004000 ∧ smallSigma1 0x00000001 = 0x0000a000 ∧
  smallSigma0 0x80000000 = 0x11002000 ∧ smallSigma1 0x80000000 = 0x00205000 ∧
  smallSigma0 0x61626380 = 0x940e90ef ∧ smallSigma1 0x00000018 = 0x000f0000

/-- 00_scope.md R6 and R126: ROTR by 0 < n < 32 moves bit (i + n) mod 32 to bit i and is a bijection; SHR moves zeros in. -/
def Obligations.RotateIsBijectiveBitMove : Prop :=
  ∀ n : Nat, 0 < n → n < 32 →
    (∀ (x : Word) (i : Nat), i < 32 →
      (rotr x n).getLsbD i = x.getLsbD ((i + n) % 32) ∧
      (shr x n).getLsbD i = (decide (i + n < 32) && x.getLsbD (i + n))) ∧
    Function.Bijective fun x : Word => rotr x n

/-- R115: the eight values of IV, each the first 32 bits of the fractional part of the square root of its prime. -/
def Obligations.IvFromSquareRoots : Prop :=
  ivTable = #v[0x6a09e667, 0xbb67ae85, 0x3c6ef372, 0xa54ff53a, 0x510e527f, 0x9b05688c, 0x1f83d9ab, 0x5be0cd19] ∧
  (primesBelow 20).length = 8 ∧
  ∀ p ∈ (primesBelow 20).zip ivTable.toList,
    ∃ r : Nat, r ^ 2 ≤ p.1 * 2 ^ 64 ∧ p.1 * 2 ^ 64 < (r + 1) ^ 2 ∧ p.2.toNat = r % 2 ^ 32

/-- 40_compress.md R116 (derivation): each K[t] is the first 32 bits of the fractional part of the cube root of the t-th
prime, and there are 64 of them. -/
def Obligations.KFromCubeRoots : Prop :=
  kTable.length = 64 ∧ (primesBelow 312).length = 64 ∧
  ∀ p ∈ (primesBelow 312).zip kTable,
    ∃ r : Nat, r ^ 3 ≤ p.1 * 2 ^ 96 ∧ p.1 * 2 ^ 96 < (r + 1) ^ 3 ∧ p.2.toNat = r % 2 ^ 32

/-! ## Memories -/

/-- 20_memory.md R66: MemRead assembles 1, 4 or 8 bytes with the byte at the lowest offset most significant. -/
def Obligations.MemReadIsBigEndian : Prop :=
  ∀ (size : Nat) (m : Vector Byte size) (a : Nat),
    memRead m a 1 = readByte m a ∧
    memRead m a 4 = readByte m a ++ readByte m (a + 1) ++ readByte m (a + 2) ++ readByte m (a + 3) ∧
    memRead m a 8 = readByte m a ++ readByte m (a + 1) ++ readByte m (a + 2) ++ readByte m (a + 3) ++
      readByte m (a + 4) ++ readByte m (a + 5) ++ readByte m (a + 6) ++ readByte m (a + 7)

/-- R67: MemWrite puts byte k of the value, counted from the most significant, at offset a + k, and writes no other
byte. -/
def Obligations.MemWritePlacesBytes : Prop :=
  ∀ (size : Nat) (m : Vector Byte size) (a n : Nat) (v : BitVec (8 * n)), a + n ≤ size →
    (∀ i : Nat, i < n → readByte (memWrite m a n v) (a + i) = v.extractLsb' (8 * (n - i - 1)) 8) ∧
    (∀ j : Nat, j < a ∨ a + n ≤ j → readByte (memWrite m a n v) j = readByte m j)

/-- 20_memory.md R62, R66, R67: what MemWrite stores MemRead gives back, at every width. -/
def Obligations.MemReadAfterWrite : Prop :=
  ∀ (size : Nat) (m : Vector Byte size) (a n : Nat) (v : BitVec (8 * n)), a + n ≤ size →
    memRead (memWrite m a n v) a n = v

/-! ## COMPRESS -/

/-- 40_compress.md R117, R118: after LOAD and EXPAND the schedule holds the block's big-endian words and then the recurrence; no other
scratch register but the index is touched; a block of zero bytes gives zero words. -/
def Obligations.ScheduleFollowsRecurrence : Prop :=
  (∀ (block : Vector Byte 64) (c : Scratch) (t : Nat),
    (t < 16 → scheduleWord (buildSchedule block c).w t =
      be32 (readByte block (4 * t)) (readByte block (4 * t + 1)) (readByte block (4 * t + 2)) (readByte block (4 * t + 3))) ∧
    (16 ≤ t → t < 64 → scheduleWord (buildSchedule block c).w t =
      add32 (add32 (add32 (smallSigma1 (scheduleWord (buildSchedule block c).w (t - 2)))
        (scheduleWord (buildSchedule block c).w (t - 7)))
        (smallSigma0 (scheduleWord (buildSchedule block c).w (t - 15))))
        (scheduleWord (buildSchedule block c).w (t - 16)))) ∧
  (∀ (block : Vector Byte 64) (c : Scratch),
    buildSchedule block c = { c with w := (buildSchedule block c).w, t := (buildSchedule block c).t }) ∧
  (∀ (c : Scratch) (t : Nat), t < 64 → scheduleWord (buildSchedule (Vector.replicate 64 0) c).w t = 0)

/-- R119: INITV copies H into a .. h in order and touches no other scratch register. -/
def Obligations.InitVarsCopyHashState : Prop :=
  ∀ (h : Vector Word 8) (c : Scratch),
    initVars h c = { c with vars := { a := h[0], b := h[1], c := h[2], d := h[3], e := h[4], f := h[5], g := h[6], h := h[7] } }

/-- R121: one round, with every right side taken from the values before it, and the rule's example. -/
def Obligations.RoundUpdatesVariables : Prop :=
  (∀ (t : Nat) (c : Scratch), t < 64 →
    (roundStep t c).t1 =
      add32 (add32 (add32 (add32 c.vars.h (bigSigma1 c.vars.e)) (ch c.vars.e c.vars.f c.vars.g)) (kAt t))
        (scheduleWord c.w t) ∧
    (roundStep t c).t2 = add32 (bigSigma0 c.vars.a) (maj c.vars.a c.vars.b c.vars.c) ∧
    (roundStep t c).vars =
      { h := c.vars.g, g := c.vars.f, f := c.vars.e, e := add32 c.vars.d (roundStep t c).t1, d := c.vars.c,
        c := c.vars.b, b := c.vars.a, a := add32 (roundStep t c).t1 (roundStep t c).t2 } ∧
    (roundStep t c).w = c.w) ∧
  (∀ c : Scratch, c.vars = varsOf ivTable → scheduleWord c.w 0 = 0x61626380 →
    (roundStep 0 c).t1 = 0x54da50e8 ∧ (roundStep 0 c).t2 = 0x08909ae5 ∧
    (roundStep 0 c).vars = ⟨0x5d6aebcd, 0x6a09e667, 0xbb67ae85, 0x3c6ef372, 0xfa2a4622, 0x510e527f, 0x9b05688c, 0x1f83d9ab⟩)

/-- R122: ADD adds each working variable back into its own word of H, modulo 2^32, with the rule's example. -/
def Obligations.FeedForwardAddsBack : Prop :=
  ∀ (h : Vector Word 8) (v : Vars),
    feedForward h v = #v[add32 h[0] v.a, add32 h[1] v.b, add32 h[2] v.c, add32 h[3] v.d,
      add32 h[4] v.e, add32 h[5] v.f, add32 h[6] v.g, add32 h[7] v.h] ∧
    (∀ x y : Word, (add32 x y).toNat = (x.toNat + y.toNat) % 2 ^ 32) ∧
    add32 0x6a09e667 0x506e3058 = 0xba7816bf ∧ add32 0x5be0cd19 0x961f4894 = 0xf20015ad

/-- 40_compress.md R128: COMPRESS is the function cmp of H and BUF, and of the state that outlives it H alone changes. That
the index register is left at 64 is the pseudocode of R123 and, the register being unspecified outside COMPRESS (R24), the
model's choice to keep it (log entry 12). -/
def Obligations.CompressComputesCmp : Prop :=
  ∀ s : State,
    (compress s).h = cmpBlock s.h s.buf ∧
    compress s = { s with h := (compress s).h, scratch := (compress s).scratch } ∧
    (compress s).scratch.t = 64

/-- 40_compress.md R124: nothing left in the scratch registers influences a COMPRESS: neither the new H nor the
scratch it leaves, which is dead and kept as the model's choice (log entry 12). -/
def Obligations.ScratchIsDeadBeforeCompress : Prop :=
  ∀ (s : State) (c : Scratch),
    (compress { s with scratch := c }).h = (compress s).h ∧
    (compress { s with scratch := c }).scratch = (compress s).scratch

/-- 40_compress.md R126: for fixed K[t] and W[t] a round is an invertible map of the working variables. -/
def Obligations.RoundIsInvertible : Prop :=
  ∀ kt wt : Word, Function.Bijective (roundVars kt wt)

/-- 40_compress.md R123, worked example: the padded block of "abc" compressed from IV. -/
def Obligations.AbcBlockCompresses : Prop :=
  cmpBlock ivTable (onlyPadBlock (tabulate 64 fun j => [0x61, 0x62, 0x63].getD j 0) 3 24) =
    #v[0xba7816bf, 0x8f01cfea, 0x414140de, 0x5dae2223, 0xb00361a3, 0x96177a9c, 0xb410ff61, 0xf20015ad]

/-! ## The commands -/

/-- R151: INIT completes in IDLE, ACTIVE and DONE with a fresh context and nothing else written, is discarded in FAULT,
invalidates the digest, and twice in a row equals once. -/
def Obligations.InitCreatesFreshContext : Prop :=
  encode .init = 0x100 ∧
  ∀ s : State,
    (s.phase ≠ .fault →
      ∃ t : State, exec .init s = .next t ∧
        t.h = #v[0x6a09e667, 0xbb67ae85, 0x3c6ef372, 0xa54ff53a, 0x510e527f, 0x9b05688c, 0x1f83d9ab, 0x5be0cd19] ∧
        t.buflen = 0 ∧ t.bitlen = 0 ∧ t.lenOvf = false ∧ t.phase = .active ∧
        t = { s with h := t.h, buflen := t.buflen, bitlen := t.bitlen, lenOvf := t.lenOvf, phase := t.phase } ∧
        (∀ a : Nat, readByte t.buf a = readByte s.buf a ∧ readByte t.digest a = readByte s.digest a) ∧
        digestValid t = false ∧
        exec .init t = .next t) ∧
    (s.phase = .fault → exec .init s = .next s)

/-- R153 and 41_stream.md R152: UPDATE in ACTIVE completes: it stores the byte at the offset BUFLEN, and no other byte,
and BUFLEN then advances; inside a block it changes nothing else. -/
def Obligations.UpdateStoresAtBuflen : Prop :=
  ∀ (s : State) (d : Byte), s.phase = .active →
    ∃ t : State, exec (.update d) s = .next t ∧
      storeOffset s = s.buflen.toNat ∧
      readByte t.buf (storeOffset s) = d ∧
      (∀ a : Nat, a ≠ storeOffset s → readByte t.buf a = readByte s.buf a) ∧
      (∀ a : Nat, readByte t.digest a = readByte s.digest a) ∧
      t.buflen.toNat = (s.buflen.toNat + 1) % 64 ∧
      (s.buflen.toNat < 63 → t = { s with buf := t.buf, buflen := t.buflen })

/-- R155 and 41_stream.md R152, R154: UPDATE of the last byte of a block completes: it stores the byte at offset 63,
compresses the full block, empties the buffer by its count alone, adds 512 to BITLEN modulo 2^64, and changes nothing
else but LEN_OVF and the scratch. -/
def Obligations.UpdateCompressesFullBlock : Prop :=
  ∀ (s : State) (d : Byte), s.phase = .active → s.buflen = 63 →
    ∃ t : State, exec (.update d) s = .next t ∧
      readByte t.buf (storeOffset s) = d ∧ storeOffset s = 63 ∧
      (∀ a : Nat, a ≠ storeOffset s → readByte t.buf a = readByte s.buf a) ∧
      t.h = cmpBlock s.h t.buf ∧
      t.buflen = 0 ∧
      t.bitlen.toNat = (s.bitlen.toNat + 512) % 2 ^ 64 ∧
      t.phase = .active ∧
      (∀ a : Nat, readByte t.digest a = readByte s.digest a) ∧
      t = { s with h := t.h, buf := t.buf, buflen := t.buflen, bitlen := t.bitlen, lenOvf := t.lenOvf,
                   scratch := t.scratch }

/-- R156: at a block boundary BITLEN grows by 512 modulo 2^64 and a carry out of bit 63 sets LEN_OVF; as BITLEN is a
multiple of 512 the addition carries only from 2^64 - 512, with result 0, and hashing goes on. -/
def Obligations.LengthCounterWrapsIntoFlag : Prop :=
  ∀ (s : State) (d : Byte), s.phase = .active → s.buflen = 63 →
    ∃ t : State, exec (.update d) s = .next t ∧
      t.bitlen.toNat = (s.bitlen.toNat + 512) % 2 ^ 64 ∧
      (t.lenOvf = true ↔ s.lenOvf = true ∨ 2 ^ 64 ≤ s.bitlen.toNat + 512) ∧
      (s.bitlen.toNat % 512 = 0 →
        (2 ^ 64 ≤ s.bitlen.toNat + 512 ↔ s.bitlen.toNat = 2 ^ 64 - 512) ∧
        (s.bitlen.toNat = 2 ^ 64 - 512 → t.bitlen = 0)) ∧
      t.phase = .active ∧ t.fcause = s.fcause

/-- 42_finalize.md R170 to R177: FINAL completes in ACTIVE. With n = BUFLEN it pads into one block when n <= 55 and into
two when n >= 56, compresses them, writes all of DIGEST from the final H, enters DONE, and changes nothing else; the
bytes below n stay in the one-block case. H, BUF, BUFLEN, BITLEN and TOTAL are dead after FINAL and may hold other values
in an implementation (R180, 10_state.md R41): that they are left as the pseudocode leaves them is the model's choice (log
entry 12). -/
def Obligations.FinalPadsCompressesDelivers : Prop :=
  ∀ s : State, s.phase = .active →
    ∃ t : State, exec .final s = .next t ∧
      t.total = s.bitlen + BitVec.ofNat 64 (8 * s.buflen.toNat) ∧
      (s.buflen.toNat ≤ 55 →
        t.buf = onlyPadBlock s.buf s.buflen.toNat t.total ∧
        t.h = cmpBlock s.h (onlyPadBlock s.buf s.buflen.toNat t.total) ∧
        (∀ a : Nat, a < s.buflen.toNat → readByte t.buf a = readByte s.buf a)) ∧
      (56 ≤ s.buflen.toNat →
        t.buf = secondPadBlock t.total ∧
        t.h = cmpBlock (cmpBlock s.h (firstPadBlock s.buf s.buflen.toNat)) (secondPadBlock t.total)) ∧
      t.digest = digestOf t.h ∧
      t.phase = .done ∧
      t = { s with h := t.h, buf := t.buf, scratch := t.scratch, total := t.total, digest := t.digest, phase := t.phase }

/-- 42_finalize.md R171: TOTAL is the pre-padding bit length; while BITLEN is a multiple of 512 the addition does not
carry. TOTAL, BITLEN and BUFLEN are dead after FINAL (R180): that they can be read there at all is the model's choice
(log entry 12). -/
def Obligations.FinalLatchesTotalLength : Prop :=
  ∀ s : State, s.phase = .active →
    ∃ t : State, exec .final s = .next t ∧
      t.total.toNat = (s.bitlen.toNat + 8 * s.buflen.toNat) % 2 ^ 64 ∧
      (s.bitlen.toNat % 512 = 0 → t.total.toNat = s.bitlen.toNat + 8 * s.buflen.toNat) ∧
      t.bitlen = s.bitlen ∧ t.buflen = s.buflen ∧ t.lenOvf = s.lenOvf

/-- 42_finalize.md R174: the last eight bytes of the final block are TOTAL, most significant byte first. BUF and TOTAL are
dead after FINAL (R180): that they hold this block there is the model's choice (log entry 12). -/
def Obligations.FinalStoresLengthBigEndian : Prop :=
  ∀ s : State, s.phase = .active →
    ∃ t : State, exec .final s = .next t ∧
      lengthOffset = 56 ∧
      ∀ i : Nat, i < 8 → readByte t.buf (lengthOffset + i) = t.total.extractLsb' (56 - 8 * i) 8

/-- 42_finalize.md R176: DIGEST holds the eight words of H in order, each most significant byte first. H is read in the
state after FINAL, where it is dead (10_state.md R41, R180): that it still holds the serialised words there is the model's
choice (log entry 12). -/
def Obligations.FinalSerialisesBigEndian : Prop :=
  ∀ s : State, s.phase = .active →
    ∃ t : State, exec .final s = .next t ∧
      ∀ i j : Nat, i < 8 → j < 4 →
        readByte t.digest (4 * i + j) = (t.h[i]?.getD 0).extractLsb' (24 - 8 * j) 8

/-! ## Decoding and dispatch -/

/-- 30_encoding.md R93, R96: decoding and encoding agree, both ways and through the opcode table's numbering: a word
decodes to a command exactly when it is that command's encoding. -/
def Obligations.DecodeEncodeAgree : Prop :=
  (∀ (i : Instr) (w : CmdWord), decode w = .command i ↔ encode i = w) ∧
  (∀ i : Instr, i.wf = true → decodeTableWord 16 (encode i).toNat = some i ∧ decodeTableWord 10 (encode i).toNat = some i)

/-- 30_encoding.md R96, 95_test_vectors.md section 6: words written out from the opcode map decode as it says. -/
def Obligations.SpecWordsDecode : Prop :=
  decode 0b0100000000 = .command .init ∧ decode 0b1001100001 = .command (.update 0x61) ∧
  decode 0b1000000000 = .command (.update 0x00) ∧ decode 0b1011111111 = .command (.update 0xFF) ∧
  decode 0b1100000000 = .command .final ∧ decode 0b0000000000 = .reserved .opZero ∧
  decode 0b0100000001 = .reserved .initData ∧ decode 0b1100000001 = .reserved .finalData ∧
  decode 0b1111111111 = .reserved .finalData

/-- 30_encoding.md R96, R97: which words are reserved, class by class, and that the classes with the 258 legal words
make up all 1024. -/
def Obligations.ReservedWordsAreTheRest : Prop :=
  (∀ w : CmdWord,
    (decode w = .reserved .opZero ↔ w.toNat ≤ 0x0FF) ∧
    (decode w = .reserved .initData ↔ 0x101 ≤ w.toNat ∧ w.toNat ≤ 0x1FF) ∧
    (decode w = .reserved .finalData ↔ 0x301 ≤ w.toNat)) ∧
  ((List.range 1024).filter fun n => (decodeTableWord 10 n).isSome).length = 258

/-- R94: the whole procedure on an accepted word, in its order: discard in FAULT; INIT; UPDATE by phase; FINAL by phase;
every other word raises Fault(1). -/
def Obligations.DispatchFollowsProcedure : Prop :=
  ∀ (w : CmdWord) (s : State),
    (s.phase = .fault → dispatchWord w s = .next s) ∧
    (s.phase ≠ .fault → w &&& 0x3FF = 0x100 → dispatchWord w s = exec .init s) ∧
    (s.phase ≠ .fault → w &&& 0x300 = 0x200 →
      (s.phase = .active → dispatchWord w s = exec (.update (w.extractLsb' 0 8)) s) ∧
      (s.phase = .done → dispatchWord w s = .next { s with fcause := .updateAfterFinal, phase := .fault }) ∧
      (s.phase = .idle → dispatchWord w s = .next { s with fcause := .updateNoContext, phase := .fault })) ∧
    (s.phase ≠ .fault → w &&& 0x3FF = 0x300 →
      (s.phase = .active → dispatchWord w s = exec .final s) ∧
      (s.phase = .done → dispatchWord w s = .next { s with fcause := .finalAfterFinal, phase := .fault }) ∧
      (s.phase = .idle → dispatchWord w s = .next { s with fcause := .finalNoContext, phase := .fault })) ∧
    (s.phase ≠ .fault → w &&& 0x3FF ≠ 0x100 → w &&& 0x300 ≠ 0x200 → w &&& 0x3FF ≠ 0x300 →
      dispatchWord w s = .next { s with fcause := .illegalCmd, phase := .fault })

/-! ## Faults -/

/-- R190: each cause has its code, and each command raises its cause in the phases the table names, as a completed
command whose only effects are the two writes of R196. -/
def Obligations.CommandsRaiseTheirCauses : Prop :=
  (causeCode .none = 0 ∧ causeCode .illegalCmd = 1 ∧ causeCode .updateAfterFinal = 2 ∧ causeCode .finalAfterFinal = 3 ∧
    causeCode .updateNoContext = 4 ∧ causeCode .finalNoContext = 5 ∧ ∀ c : Cause, causeCode c ≠ 6 ∧ causeCode c ≠ 7) ∧
  ∀ s : State,
    (s.phase = .done →
      (∀ d : Byte, exec (.update d) s = .next { s with fcause := .updateAfterFinal, phase := .fault }) ∧
      exec .final s = .next { s with fcause := .finalAfterFinal, phase := .fault }) ∧
    (s.phase = .idle →
      (∀ d : Byte, exec (.update d) s = .next { s with fcause := .updateNoContext, phase := .fault }) ∧
      exec .final s = .next { s with fcause := .finalNoContext, phase := .fault }) ∧
    (∀ (w : CmdWord) (r : Reserved), s.phase ≠ .fault → decode w = .reserved r →
      dispatchWord w s = .next { s with fcause := .illegalCmd, phase := .fault })

/-- R196: whatever word leads into PHASE = FAULT, that command wrote FCAUSE and PHASE and nothing else, and once it is
complete the ports show fault = 1 and its cause. -/
def Obligations.FaultEntryWritesTwoRegisters : Prop :=
  ∀ (w : CmdWord) (s t : State), dispatchWord w s = .next t → s.phase ≠ .fault → t.phase = .fault →
    t = { s with fcause := t.fcause, phase := .fault } ∧ t.fcause ≠ .none ∧
    ∀ u : State, u.phase = t.phase → u.fcause = t.fcause → (outputs u).cmdReady = true →
      (outputs u).fault = true ∧ (outputs u).fcause = causeCode t.fcause ∧ (outputs u).phase = 0b11

/-- 60_exceptions.md R199: every word accepted in FAULT is discarded with no state change, so FCAUSE keeps the first cause. -/
def Obligations.FaultDiscardsEveryWord : Prop :=
  ∀ (w : CmdWord) (s : State), s.phase = .fault →
    dispatchWord w s = .next s ∧ ∀ i : Instr, exec i s = .next s

/-- R198: a step out of PHASE = FAULT is a reset, which also clears FCAUSE; every other step, an INIT among them, leaves
PHASE, FCAUSE and the whole context as they were. -/
def Obligations.OnlyResetLeavesFault : Prop :=
  ∀ s t : State, step s = .next t → s.phase = .fault →
    (resetTakes s = true →
      t.phase = .idle ∧ t.fcause = .none ∧ t.lenOvf = false ∧ t.buflen = 0 ∧ t.bitlen = 0) ∧
    (resetTakes s = false →
      t = { s with busy := t.busy, inputs := t.inputs, instant := t.instant, left := t.left, settle := t.settle,
                   before := t.before })

/-! ## Phases, registers and ports -/

/-- 10_state.md R35: the four codes of PHASE, and where each step moves it: to IDLE by reset, and by an accepted word as the
table of the rule says, with the causes it names. That PHASE has its new value from the accepting edge on, while BUSY = 1
already, is the model's choice (log entry 11). -/
def Obligations.PhaseFollowsTable : Prop :=
  (phaseCode .idle = 0b00 ∧ phaseCode .active = 0b01 ∧ phaseCode .done = 0b10 ∧ phaseCode .fault = 0b11) ∧
  ∀ s t : State, step s = .next t →
    (resetTakes s = true → t.phase = .idle) ∧
    (resetTakes s = false → accepts s = false → t.phase = s.phase) ∧
    (accepts s = true → s.phase = .fault → t.phase = .fault ∧ t.fcause = s.fcause) ∧
    (accepts s = true → s.phase ≠ .fault →
      (∀ r : Reserved, decode (nextSample s).cmd = .reserved r → t.phase = .fault ∧ t.fcause = .illegalCmd) ∧
      (decode (nextSample s).cmd = .command .init → t.phase = .active) ∧
      (∀ d : Byte, decode (nextSample s).cmd = .command (.update d) →
        (s.phase = .active → t.phase = .active) ∧
        (s.phase = .idle → t.phase = .fault ∧ t.fcause = .updateNoContext) ∧
        (s.phase = .done → t.phase = .fault ∧ t.fcause = .updateAfterFinal)) ∧
      (decode (nextSample s).cmd = .command .final →
        (s.phase = .active → t.phase = .done) ∧
        (s.phase = .idle → t.phase = .fault ∧ t.fcause = .finalNoContext) ∧
        (s.phase = .done → t.phase = .fault ∧ t.fcause = .finalAfterFinal)))

/-- 10_state.md R32: LEN_OVF is cleared only by INIT or reset and set only by the UPDATE whose counter addition carries,
after which PHASE is ACTIVE; those writes do happen. That the bit changes at the accepting edge itself, before BUSY falls,
is the model's choice (log entry 11). -/
def Obligations.LenOvfIsSticky : Prop :=
  ∀ s t : State, step s = .next t →
    (resetTakes s = true → t.lenOvf = false) ∧
    (accepts s = true → s.phase ≠ .fault → decode (nextSample s).cmd = .command .init → t.lenOvf = false) ∧
    (∀ d : Byte, accepts s = true → s.phase = .active → decode (nextSample s).cmd = .command (.update d) →
      s.buflen = 63 → 2 ^ 64 ≤ s.bitlen.toNat + 512 → t.lenOvf = true) ∧
    (resetTakes s = false → s.lenOvf = true → t.lenOvf = false →
      accepts s = true ∧ decode (nextSample s).cmd = .command .init ∧ s.phase ≠ .fault) ∧
    (resetTakes s = false → s.lenOvf = false → t.lenOvf = true →
      accepts s = true ∧ (∃ d : Byte, decode (nextSample s).cmd = .command (.update d)) ∧ s.phase = .active ∧
        s.buflen = 63 ∧ 2 ^ 64 ≤ s.bitlen.toNat + 512 ∧ t.phase = .active)

/-- 10_state.md R21, R30: outside reset H changes only by INIT and by the COMPRESS of an UPDATE at a block boundary or of
FINAL, and BITLEN only by INIT and by such an UPDATE. That the step in which they change is the one that accepts the
command, and none of those in which BUSY = 1, is the model's choice (log entry 11). -/
def Obligations.HashStateAndCounterWriters : Prop :=
  ∀ s t : State, step s = .next t → resetTakes s = false →
    (t.h ≠ s.h →
      accepts s = true ∧ s.phase ≠ .fault ∧
        (decode (nextSample s).cmd = .command .init ∨
          (s.phase = .active ∧ s.buflen = 63 ∧ ∃ d : Byte, decode (nextSample s).cmd = .command (.update d)) ∨
          (s.phase = .active ∧ decode (nextSample s).cmd = .command .final))) ∧
    (t.bitlen ≠ s.bitlen →
      accepts s = true ∧ s.phase ≠ .fault ∧
        (decode (nextSample s).cmd = .command .init ∨
          (s.phase = .active ∧ s.buflen = 63 ∧ ∃ d : Byte, decode (nextSample s).cmd = .command (.update d))))

/-- 10_state.md R34: outside reset only FINAL writes DIGEST, so it holds its value for as long as PHASE stays DONE, and a
reader then sees the same 256 bits whenever digest_valid = 1. That DIGEST changes in the step that accepts FINAL is the
model's choice (log entry 11). -/
def Obligations.DigestIsImmutableOnceProduced : Prop :=
  ∀ s t : State, step s = .next t → resetTakes s = false →
    (t.digest ≠ s.digest →
      accepts s = true ∧ s.phase = .active ∧ decode (nextSample s).cmd = .command .final) ∧
    (s.phase = .done → t.phase = .done → t.digest = s.digest) ∧
    ((outputs s).digestValid = true → (outputs t).digestValid = true → (outputs t).digest = (outputs s).digest)

/-- 10_state.md R37: cmd_ready and digest_valid as functions of the state, and fault = 1 exactly when PHASE = FAULT
whenever cmd_ready = 1. That fault agrees with the phase port at every cycle, in the middle of a command too, is the
model's choice and no rule of the spec (log entry 6): R37 and R92 read fault of PHASE, and R45 lets the phase port lag. -/
def Obligations.StatusOutputsFollowState : Prop :=
  ∀ s : State,
    ((outputs s).cmdReady = true ↔ s.busy = false) ∧
    ((outputs s).digestValid = true ↔ s.phase = .done ∧ s.busy = false) ∧
    ((outputs s).fault = true ↔ (outputs s).phase = 0b11) ∧
    ((outputs s).cmdReady = true → ((outputs s).fault = true ↔ s.phase = .fault))

/-- 10_state.md R45: while cmd_ready = 1 the status ports show the registers; while a command is in flight each shows
the old or the new value. -/
def Obligations.StatusPortsSettleWhenReady : Prop :=
  ∀ s : State,
    ((outputs s).cmdReady = true →
      (outputs s).phase = phaseCode s.phase ∧ (outputs s).fcause = causeCode s.fcause ∧ (outputs s).lenOvf = s.lenOvf) ∧
    ((outputs s).phase = phaseCode s.phase ∨ (outputs s).phase = phaseCode s.before.phase) ∧
    ((outputs s).fcause = causeCode s.fcause ∨ (outputs s).fcause = causeCode s.before.fcause) ∧
    ((outputs s).lenOvf = s.lenOvf ∨ (outputs s).lenOvf = s.before.lenOvf)

/-- R70: DIGEST on the port, byte 0 on top, so that word i of the serialised H stands in bits 255 - 32i down to
224 - 32i. -/
def Obligations.DigestPortHasByteZeroOnTop : Prop :=
  (∀ (d : Vector Byte 32) (j : Nat), j < 32 → (packDigest d).extractLsb' (248 - 8 * j) 8 = readByte d j) ∧
  (∀ (h : Vector Word 8) (i : Nat), i < 8 →
    (packDigest (digestOf h)).extractLsb' (224 - 32 * i) 32 = h[i]?.getD 0) ∧
  (∀ s : State, (outputs s).digestValid = true → (outputs s).digest = packDigest s.digest)

/-- 70_reset_and_hazards.md R234: fault, once 1 on the port, stays 1 until reset. The premise Inv rules out states in
which a command in flight would take a fault back. -/
def Obligations.FaultPortStaysUntilReset : Prop :=
  ∀ s t : State, Inv s → step s = .next t → resetTakes s = false →
    (outputs s).fault = true → (outputs t).fault = true

/-! ## The command channel and reset -/

/-- 30_encoding.md R91: when a word on the channel is accepted and decodes to a command, the step is exec of that
command on the state after the instant, with the command then in flight: BUSY = 1 for its latency. That all of exec
happens in that step is the model's choice (log entry 11). The same for a word of a table row, which withFetchWord puts
on the channel (log entry 9). -/
def Obligations.StepRunsDecodedCommand : Prop :=
  (∀ (s : State) (i : Instr), accepts s = true → decode (nextSample s).cmd = .command i →
    step s = onNext (beginFlight (takeSample s) (nextSample s).cmd)
      (exec i { s with inputs := s.inputs.tail, instant := s.instant + 1 })) ∧
  (∀ (s : State) (nbits w : Nat) (i : Instr), decodeTableWord nbits w = some i →
    step (s.withFetchWord nbits w) =
      onNext (beginFlight (takeSample (s.withFetchWord nbits w)) (BitVec.ofNat 10 (tableBits nbits w)))
        (exec i { s with busy := false, left := 0, inputs := s.inputs.tail, instant := s.instant + 1 }))

/-- 30_encoding.md R91, 20_memory.md R74: every step answers a next state, whatever the state and the inputs; it uses up
one input sample. -/
def Obligations.EveryEdgeAnswersNextState : Prop :=
  ∀ s : State, ∃ t : State, step s = .next t ∧ t.inputs = s.inputs.tail ∧ t.instant = s.instant + 1

/-- 30_encoding.md R91, 70_reset_and_hazards.md R221: without reset, an edge at which nothing is presented changes no
register, nor does an instant between two edges; an edge at which BUSY = 1 takes no command, whatever is on the channel;
and an edge at which rst is asserted takes none either and ends with cmd_ready = 0. That no register changes in the steps
in which BUSY = 1 is the model's choice (log entry 11), as is what a too narrow assertion does (log entry 13). -/
def Obligations.EdgesWithoutAcceptance : Prop :=
  ∀ s : State,
    ((nextSample s).clk = true → (nextSample s).rst = none → s.busy = false → (nextSample s).cmdValid = false →
      step s = .next { s with inputs := s.inputs.tail, instant := s.instant + 1 }) ∧
    ((nextSample s).clk = true → (nextSample s).rst = none → s.busy = true → ∃ t : State, step s = .next t ∧
      (t.busy = false ↔ s.left ≤ 1) ∧ t.left = s.left - 1 ∧
      t = { s with busy := t.busy, left := t.left, inputs := s.inputs.tail, instant := s.instant + 1 }) ∧
    ((nextSample s).clk = true → (nextSample s).rst ≠ none → ∃ t : State, step s = .next t ∧
      (outputs t).cmdReady = false ∧
      (t = resetEvent { s with inputs := s.inputs.tail, instant := s.instant + 1 } ∨
        t = { s with busy := true, left := t.left, before := t.before, inputs := s.inputs.tail,
                     instant := s.instant + 1 })) ∧
    ((nextSample s).clk = false → (nextSample s).rst = none →
      step s = .next { s with inputs := s.inputs.tail, instant := s.instant + 1 })

/-- 70_reset_and_hazards.md R238: progress. From any state that meets the invariant, with no reset on the way, the CORE
is ready again after the cycles it has left. That the registers are then as they were while BUSY = 1 is the model's choice
(log entry 11). -/
def Obligations.EveryCommandCompletes : Prop :=
  ∀ s : State, Inv s → quietFor s.left s →
    ∃ t : State, Sys2Proof.core.run s.left s = .next t ∧ (outputs t).cmdReady = true ∧
      t = { s with busy := false, left := 0, inputs := t.inputs, instant := t.instant }

/-- 70_reset_and_hazards.md R239, R240: an accepted word keeps the CORE busy for the latency of its case, at least 1 cycle;
the latencies themselves are free, and may depend on the word and on every register (log entry 5). -/
def Obligations.AcceptedWordTakesItsLatency : Prop :=
  (∀ s : State, accepts s = true →
    ∃ t : State, step s = .next t ∧ t.busy = true ∧ 1 ≤ t.left ∧
      t.left = Config.latency (latencyCase (decode (nextSample s).cmd) s) (s.instant + 1)
        (flightData (nextSample s).cmd s)) ∧
  (∀ s : State, s.phase = .fault → ∀ d : Decoded, latencyCase d s = .tFault) ∧
  (∀ (s : State) (d : Byte), s.phase = .active →
    latencyCase (.command .init) s = .tInit ∧
    latencyCase (.command (.update d)) s = (if s.buflen = 63 then .tUpdateCmp else .tUpdate) ∧
    latencyCase (.command .final) s = (if s.buflen.toNat ≤ 55 then .tFinal1 else .tFinal2))

/-- R223: reset taking effect, a command in flight or presented there or not, gives the control registers their reset
values and the outputs those of reset; the command is lost. -/
def Obligations.ResetEdgeAbandonsEverything : Prop :=
  ∀ s : State, resetTakes s = true →
    ∃ t : State, step s = .next t ∧
      t.phase = .idle ∧ t.fcause = .none ∧ t.lenOvf = false ∧ t.buflen = 0 ∧ t.bitlen = 0 ∧
      (outputs t).cmdReady = false ∧ (outputs t).phase = 0 ∧ (outputs t).fcause = 0 ∧ (outputs t).lenOvf = false ∧
      (outputs t).digestValid = false ∧ (outputs t).fault = false ∧
      t.inputs = s.inputs.tail ∧ Inv t

/-- 70_reset_and_hazards.md R221, 00_scope.md R5: what RESET_STYLE decides, whatever its value. Reset never takes effect
where rst is not asserted; an assertion of at least the minimum width takes effect at a clock edge in every style, and
between two edges exactly in the asynchronous one; a narrower one may or may not (log entry 13). And after a reset the CORE
becomes ready within T_RESET cycles of release. -/
def Obligations.ResetEndsWithinBound : Prop :=
  (∀ s : State, (nextSample s).rst = none → resetTakes s = false) ∧
  (∀ (s : State) (width : Nat), (nextSample s).rst = some width → Config.resetStyle.minWidth ≤ width →
    ((nextSample s).clk = true → resetTakes s = true) ∧
    ((nextSample s).clk = false → resetTakes s = Config.resetStyle.asynchronous)) ∧
  (∀ s t : State, resetTakes s = true → step s = .next t → quietFor Config.tReset t →
    ∃ (n : Nat) (u : State), 1 ≤ n ∧ n ≤ Config.tReset ∧ Sys2Proof.core.run n t = .next u ∧
      (outputs u).cmdReady = true ∧ u.phase = .idle)

/-- 10_state.md R42: the control registers and the outputs of the state the model starts from. The other registers'
values there are the model's choice (log entry 1) and no statement rests on them; BUSY = 0 is the choice of log
entry 2. -/
def Obligations.ResetStateHasControlValues : Prop :=
  State.reset.phase = .idle ∧ State.reset.fcause = .none ∧ State.reset.lenOvf = false ∧
  State.reset.buflen = 0 ∧ State.reset.bitlen = 0 ∧ State.reset.busy = false ∧
  (outputs State.reset).phase = 0 ∧ (outputs State.reset).fcause = 0 ∧ (outputs State.reset).lenOvf = false ∧
  (outputs State.reset).digestValid = false ∧ (outputs State.reset).fault = false

/-! ## The invariant -/

/-- 10_state.md R30, R36, R40; 70_reset_and_hazards.md R234: every step keeps the invariant, from every state. -/
def Obligations.StepKeepsInvariant : Prop :=
  ∀ s t : State, Inv s → step s = .next t → Inv t

/-- 10_state.md R36, R42: the invariant holds in the state the model starts from. -/
def Obligations.ResetStateMeetsInvariant : Prop := Inv State.reset

/-! ## Messages -/

/-- R157: the state after INIT and the UPDATE commands of k < 2^61 bytes, from any phase but FAULT. -/
def Obligations.StateAfterUpdates : Prop :=
  ∀ (m : List Byte) (s : State), messageFits m → s.phase ≠ .fault →
    ∃ t : State, execAll (.init :: updatesOf m) s = .next t ∧
      t.h = (blocksOf m).foldl cmpBlock ivTable ∧
      t.buflen.toNat = m.length % 64 ∧
      (∀ i : Nat, i < m.length % 64 → some (readByte t.buf i) = m[64 * (m.length / 64) + i]?) ∧
      t.bitlen.toNat = 512 * (m.length / 64) ∧
      t.phase = .active ∧ t.lenOvf = false

/-- 10_state.md R31: after INIT and the UPDATE commands of a message, BITLEN + 8 x BUFLEN is 8 x the number of bytes while
LEN_OVF = 0, and LEN_OVF is set exactly when 2^61 bytes or more were accepted. -/
def Obligations.LengthCountsEveryByte : Prop :=
  ∀ (m : List Byte) (s : State), s.phase ≠ .fault →
    ∃ t : State, execAll (.init :: updatesOf m) s = .next t ∧
      (t.lenOvf = true ↔ 2 ^ 61 ≤ m.length) ∧
      (t.lenOvf = false → t.bitlen.toNat + 8 * t.buflen.toNat = 8 * m.length)

/-- R2: INIT, the bytes of a message and FINAL leave PHASE = DONE and, while the message is shorter than 2^61 bytes,
DIGEST = SHA-256 of the message, from any phase but FAULT (42_finalize.md R182). A longer message leaves LEN_OVF = 1 and
is given no digest here (R181). -/
def Obligations.HashDeliversSha256 : Prop :=
  ∀ (m : List Byte) (s : State), s.phase ≠ .fault →
    ∃ t : State, execAll (SourceLine.hash m).commands s = .next t ∧
      (SourceLine.hash m).commands = .init :: ((m.map fun d => Instr.update d) ++ [.final]) ∧
      t.phase = .done ∧
      (messageFits m → t.lenOvf = false ∧ t.digest = sha256 m) ∧
      (¬ messageFits m → t.lenOvf = true)

/-- 42_finalize.md R182, 90_conflicts.md C1: the known answers, each as one 256-bit number. -/
def Obligations.KnownAnswerDigests : Prop :=
  packDigest (sha256 []) = 0xe3b0c44298fc1c149afbf4c8996fb92427ae41e4649b934ca495991b7852b855 ∧
  packDigest (sha256 [0x61, 0x62, 0x63]) = 0xba7816bf8f01cfea414140de5dae2223b00361a396177a9cb410ff61f20015ad ∧
  packDigest (sha256 [0x68, 0x65, 0x6c, 0x6c, 0x6f, 0x20, 0x77, 0x6f, 0x72, 0x6c, 0x64]) =
    0xb94d27b9934d3e08a52e52d7da7dabfac484efe37a5380ee9088f7ace2efcde9

/-- 41_stream.md R151 corner cases, 00_scope.md R7: the digest of a message does not depend on anything that went before
its INIT, nor on what the registers held. -/
def Obligations.HashForgetsHistory : Prop :=
  ∀ (m : List Byte) (s s' : State), s.phase ≠ .fault → s'.phase ≠ .fault →
    ∃ t t' : State, execAll (hashCommands m) s = .next t ∧ execAll (hashCommands m) s' = .next t' ∧
      t.digest = t'.digest ∧ t.phase = t'.phase ∧ t.lenOvf = t'.lenOvf

/-- 42_finalize.md R178, R179: the padded message is whole blocks, one or two more than the message fills, and no two
messages of fewer than 2^61 bytes pad to the same byte string. -/
def Obligations.PaddingIsWholeAndInjective : Prop :=
  (∀ m : List Byte,
    (padMessage m).length % 64 = 0 ∧
    (padMessage m).length / 64 = m.length / 64 + (if m.length % 64 ≤ 55 then 1 else 2)) ∧
  (∀ m m' : List Byte, messageFits m → messageFits m' → padMessage m = padMessage m' → m = m')

/-- 41_stream.md R158, 30_encoding.md R100: every way to split a byte string into UPDATES pieces, empty ones among them,
gives the same commands, and running two command lists in turn is running their concatenation. -/
def Obligations.ChunkingDoesNotMatter : Prop :=
  (∀ chunks : List (List Byte), programCommands (chunks.map SourceLine.updates) = updatesOf chunks.flatten) ∧
  (∀ (xs ys : List Instr) (s t : State), execAll xs s = .next t → execAll (xs ++ ys) s = execAll ys t)

/-- 30_encoding.md R99, R100: the text of a program assembles to the words of the opcode map; an operand that is no byte
is refused. What else the reader accepts is the model's choice (log entry 10). -/
def Obligations.ProgramTextAssembles : Prop :=
  assemble [['I', 'N', 'I', 'T', ' ', '#', 'x'], ['U', 'P', 'D', 'A', 'T', 'E', ' ', '\'', 'a', '\''],
    ['U', 'P', 'D', 'A', 'T', 'E', ' ', '0', 'x', '6', '1'], ['U', 'P', 'D', 'A', 'T', 'E', ' ', '9', '7'],
    ['F', 'I', 'N', 'A', 'L'], ['W', 'A', 'I', 'T', 'D', 'I', 'G', 'E', 'S', 'T']] =
    some [0x100, 0x261, 0x261, 0x261, 0x300] ∧
  assemble [['H', 'A', 'S', 'H', ' ', '"', 'a', 'b', 'c', '"']] = some [0x100, 0x261, 0x262, 0x263, 0x300] ∧
  assemble [['U', 'P', 'D', 'A', 'T', 'E', 'S', ' ', 'x', '"', '0', '0', 'f', 'F', '"']] = some [0x200, 0x2FF] ∧
  assemble [['U', 'P', 'D', 'A', 'T', 'E', ' ', '2', '5', '6']] = none
end

