-- ==== Sys2Proof/Laws/Decode.lean ====
section
/-! SUPPORT. The decoder row by row: which words each row takes, that no two rows meet, and what is left over. -/

namespace Sys2Proof

/-- No word selects two rows of the opcode map (30_encoding.md R96). -/
theorem rows_disjoint : opcodeRows.Pairwise fun r r' => ∀ w : CmdWord, ¬ (r.selects w = true ∧ r'.selects w = true) := by
  simp only [opcodeRows, List.pairwise_cons, List.mem_cons, List.not_mem_nil, or_false]
  refine ⟨?_, ?_, by simp, by simp⟩
  · rintro r (rfl | rfl) <;> decide +kernel
  · rintro r rfl; decide +kernel

theorem decode_of_init {w : CmdWord} (h : w &&& 0x3FF = 0x100) : decode w = .command .init := by
  have : initRow.selects w = true := by simp only [OpcodeRow.selects, initRow, h]; decide
  simp [decode, this]

theorem decode_of_update {w : CmdWord} (h : w &&& 0x300 = 0x200) :
    decode w = .command (.update (w.extractLsb' 0 8)) := by
  have h2 : updateRow.selects w = true := by simp only [OpcodeRow.selects, updateRow, h]; decide
  have h1 : ¬ initRow.selects w = true := by
    have hd := rows_disjoint
    simp only [opcodeRows, List.pairwise_cons] at hd
    exact fun h1 => hd.1 updateRow (by simp) w ⟨h1, h2⟩
  simp only [decode, h1, h2, dataField, if_true, if_false, Bool.false_eq_true]

theorem decode_of_final {w : CmdWord} (h : w &&& 0x3FF = 0x300) : decode w = .command .final := by
  have h3 : finalRow.selects w = true := by simp only [OpcodeRow.selects, finalRow, h]; decide
  have hd := rows_disjoint
  simp only [opcodeRows, List.pairwise_cons] at hd
  have h1 : ¬ initRow.selects w = true := fun h1 => hd.1 finalRow (by simp) w ⟨h1, h3⟩
  have h2 : ¬ updateRow.selects w = true := fun h2 => hd.2.1 finalRow (by simp) w ⟨h2, h3⟩
  simp only [decode, h1, h2, h3, if_true, if_false, Bool.false_eq_true]

/-- A word that selects no row is reserved. -/
theorem decode_of_none {w : CmdWord} (h1 : w &&& 0x3FF ≠ 0x100) (h2 : w &&& 0x300 ≠ 0x200) (h3 : w &&& 0x3FF ≠ 0x300) :
    decode w = .reserved (reservedClass w) := by
  simp only [decode, OpcodeRow.selects, initRow, updateRow, finalRow, h1, h2, h3, decide_false, if_false,
    Bool.false_eq_true]

/-- A word that decodes to a command selects that command's row, and UPDATE takes its data field. -/
theorem selects_of_decode {w : CmdWord} {i : Instr} (h : decode w = .command i) :
    match i with
    | .init => w &&& 0x3FF = 0x100
    | .update d => w &&& 0x300 = 0x200 ∧ d = w.extractLsb' 0 8
    | .final => w &&& 0x3FF = 0x300 := by
  unfold decode at h
  split at h
  · cases h; exact of_decide_eq_true ‹initRow.selects w = true›
  · split at h
    · cases h; exact ⟨of_decide_eq_true ‹updateRow.selects w = true›, rfl⟩
    · split at h
      · cases h; exact of_decide_eq_true ‹finalRow.selects w = true›
      · cases h

end Sys2Proof
end

