-- ==== Sys2Proof/Laws/State.lean ====
section
/-! SUPPORT. What each named update of the state does to each field: one lemma per field and update, true by
unfolding, so that no later proof unfolds a record update. -/

namespace Sys2Proof.Machine

/-! ### raiseFault -/

@[simp] theorem raiseFault_h (c : Cause) (s : State) : (raiseFault c s).h = s.h := rfl
@[simp] theorem raiseFault_buf (c : Cause) (s : State) : (raiseFault c s).buf = s.buf := rfl
@[simp] theorem raiseFault_buflen (c : Cause) (s : State) : (raiseFault c s).buflen = s.buflen := rfl
@[simp] theorem raiseFault_bitlen (c : Cause) (s : State) : (raiseFault c s).bitlen = s.bitlen := rfl
@[simp] theorem raiseFault_lenOvf (c : Cause) (s : State) : (raiseFault c s).lenOvf = s.lenOvf := rfl
@[simp] theorem raiseFault_scratch (c : Cause) (s : State) : (raiseFault c s).scratch = s.scratch := rfl
@[simp] theorem raiseFault_total (c : Cause) (s : State) : (raiseFault c s).total = s.total := rfl
@[simp] theorem raiseFault_digest (c : Cause) (s : State) : (raiseFault c s).digest = s.digest := rfl
@[simp] theorem raiseFault_phase (c : Cause) (s : State) : (raiseFault c s).phase = .fault := rfl
@[simp] theorem raiseFault_fcause (c : Cause) (s : State) : (raiseFault c s).fcause = c := rfl
@[simp] theorem raiseFault_busy (c : Cause) (s : State) : (raiseFault c s).busy = s.busy := rfl
@[simp] theorem raiseFault_inputs (c : Cause) (s : State) : (raiseFault c s).inputs = s.inputs := rfl
@[simp] theorem raiseFault_instant (c : Cause) (s : State) : (raiseFault c s).instant = s.instant := rfl
@[simp] theorem raiseFault_left (c : Cause) (s : State) : (raiseFault c s).left = s.left := rfl
@[simp] theorem raiseFault_settle (c : Cause) (s : State) : (raiseFault c s).settle = s.settle := rfl
@[simp] theorem raiseFault_before (c : Cause) (s : State) : (raiseFault c s).before = s.before := rfl

/-! ### createContext -/

@[simp] theorem createContext_h (s : State) : (createContext s).h = ivTable := rfl
@[simp] theorem createContext_buf (s : State) : (createContext s).buf = s.buf := rfl
@[simp] theorem createContext_buflen (s : State) : (createContext s).buflen = 0 := rfl
@[simp] theorem createContext_bitlen (s : State) : (createContext s).bitlen = 0 := rfl
@[simp] theorem createContext_lenOvf (s : State) : (createContext s).lenOvf = false := rfl
@[simp] theorem createContext_scratch (s : State) : (createContext s).scratch = s.scratch := rfl
@[simp] theorem createContext_total (s : State) : (createContext s).total = s.total := rfl
@[simp] theorem createContext_digest (s : State) : (createContext s).digest = s.digest := rfl
@[simp] theorem createContext_phase (s : State) : (createContext s).phase = .active := rfl
@[simp] theorem createContext_fcause (s : State) : (createContext s).fcause = s.fcause := rfl
@[simp] theorem createContext_busy (s : State) : (createContext s).busy = s.busy := rfl
@[simp] theorem createContext_inputs (s : State) : (createContext s).inputs = s.inputs := rfl
@[simp] theorem createContext_instant (s : State) : (createContext s).instant = s.instant := rfl
@[simp] theorem createContext_left (s : State) : (createContext s).left = s.left := rfl
@[simp] theorem createContext_settle (s : State) : (createContext s).settle = s.settle := rfl
@[simp] theorem createContext_before (s : State) : (createContext s).before = s.before := rfl

/-! ### storeMessageByte -/

@[simp] theorem storeMessageByte_h (d : Byte) (s : State) : (storeMessageByte d s).h = s.h := by simp only [storeMessageByte]
@[simp] theorem storeMessageByte_buf (d : Byte) (s : State) : (storeMessageByte d s).buf = memWrite s.buf (storeOffset s) 1 (immediate d) := by simp only [storeMessageByte]
@[simp] theorem storeMessageByte_buflen (d : Byte) (s : State) : (storeMessageByte d s).buflen = s.buflen := by simp only [storeMessageByte]
@[simp] theorem storeMessageByte_bitlen (d : Byte) (s : State) : (storeMessageByte d s).bitlen = s.bitlen := by simp only [storeMessageByte]
@[simp] theorem storeMessageByte_lenOvf (d : Byte) (s : State) : (storeMessageByte d s).lenOvf = s.lenOvf := by simp only [storeMessageByte]
@[simp] theorem storeMessageByte_scratch (d : Byte) (s : State) : (storeMessageByte d s).scratch = s.scratch := by simp only [storeMessageByte]
@[simp] theorem storeMessageByte_total (d : Byte) (s : State) : (storeMessageByte d s).total = s.total := by simp only [storeMessageByte]
@[simp] theorem storeMessageByte_digest (d : Byte) (s : State) : (storeMessageByte d s).digest = s.digest := by simp only [storeMessageByte]
@[simp] theorem storeMessageByte_phase (d : Byte) (s : State) : (storeMessageByte d s).phase = s.phase := by simp only [storeMessageByte]
@[simp] theorem storeMessageByte_fcause (d : Byte) (s : State) : (storeMessageByte d s).fcause = s.fcause := by simp only [storeMessageByte]
@[simp] theorem storeMessageByte_busy (d : Byte) (s : State) : (storeMessageByte d s).busy = s.busy := by simp only [storeMessageByte]
@[simp] theorem storeMessageByte_inputs (d : Byte) (s : State) : (storeMessageByte d s).inputs = s.inputs := by simp only [storeMessageByte]
@[simp] theorem storeMessageByte_instant (d : Byte) (s : State) : (storeMessageByte d s).instant = s.instant := by simp only [storeMessageByte]
@[simp] theorem storeMessageByte_left (d : Byte) (s : State) : (storeMessageByte d s).left = s.left := by simp only [storeMessageByte]
@[simp] theorem storeMessageByte_settle (d : Byte) (s : State) : (storeMessageByte d s).settle = s.settle := by simp only [storeMessageByte]
@[simp] theorem storeMessageByte_before (d : Byte) (s : State) : (storeMessageByte d s).before = s.before := by simp only [storeMessageByte]

/-! ### closeBlock -/

@[simp] theorem closeBlock_h (s : State) : (closeBlock s).h = s.h := rfl
@[simp] theorem closeBlock_buf (s : State) : (closeBlock s).buf = s.buf := rfl
@[simp] theorem closeBlock_buflen (s : State) : (closeBlock s).buflen = 0 := rfl
@[simp] theorem closeBlock_bitlen (s : State) : (closeBlock s).bitlen = add64 s.bitlen blockBits := rfl
@[simp] theorem closeBlock_lenOvf (s : State) : (closeBlock s).lenOvf = lenOvfAfterBlock s := rfl
@[simp] theorem closeBlock_scratch (s : State) : (closeBlock s).scratch = s.scratch := rfl
@[simp] theorem closeBlock_total (s : State) : (closeBlock s).total = s.total := rfl
@[simp] theorem closeBlock_digest (s : State) : (closeBlock s).digest = s.digest := rfl
@[simp] theorem closeBlock_phase (s : State) : (closeBlock s).phase = s.phase := rfl
@[simp] theorem closeBlock_fcause (s : State) : (closeBlock s).fcause = s.fcause := rfl
@[simp] theorem closeBlock_busy (s : State) : (closeBlock s).busy = s.busy := rfl
@[simp] theorem closeBlock_inputs (s : State) : (closeBlock s).inputs = s.inputs := rfl
@[simp] theorem closeBlock_instant (s : State) : (closeBlock s).instant = s.instant := rfl
@[simp] theorem closeBlock_left (s : State) : (closeBlock s).left = s.left := rfl
@[simp] theorem closeBlock_settle (s : State) : (closeBlock s).settle = s.settle := rfl
@[simp] theorem closeBlock_before (s : State) : (closeBlock s).before = s.before := rfl

/-! ### advanceBuflen -/

@[simp] theorem advanceBuflen_h (s : State) : (advanceBuflen s).h = s.h := rfl
@[simp] theorem advanceBuflen_buf (s : State) : (advanceBuflen s).buf = s.buf := rfl
@[simp] theorem advanceBuflen_buflen (s : State) : (advanceBuflen s).buflen = s.buflen + 1 := rfl
@[simp] theorem advanceBuflen_bitlen (s : State) : (advanceBuflen s).bitlen = s.bitlen := rfl
@[simp] theorem advanceBuflen_lenOvf (s : State) : (advanceBuflen s).lenOvf = s.lenOvf := rfl
@[simp] theorem advanceBuflen_scratch (s : State) : (advanceBuflen s).scratch = s.scratch := rfl
@[simp] theorem advanceBuflen_total (s : State) : (advanceBuflen s).total = s.total := rfl
@[simp] theorem advanceBuflen_digest (s : State) : (advanceBuflen s).digest = s.digest := rfl
@[simp] theorem advanceBuflen_phase (s : State) : (advanceBuflen s).phase = s.phase := rfl
@[simp] theorem advanceBuflen_fcause (s : State) : (advanceBuflen s).fcause = s.fcause := rfl
@[simp] theorem advanceBuflen_busy (s : State) : (advanceBuflen s).busy = s.busy := rfl
@[simp] theorem advanceBuflen_inputs (s : State) : (advanceBuflen s).inputs = s.inputs := rfl
@[simp] theorem advanceBuflen_instant (s : State) : (advanceBuflen s).instant = s.instant := rfl
@[simp] theorem advanceBuflen_left (s : State) : (advanceBuflen s).left = s.left := rfl
@[simp] theorem advanceBuflen_settle (s : State) : (advanceBuflen s).settle = s.settle := rfl
@[simp] theorem advanceBuflen_before (s : State) : (advanceBuflen s).before = s.before := rfl

/-! ### compress -/

theorem compress_h (s : State) : (compress s).h = feedForward s.h (compressScratch s.h s.buf s.scratch).vars := by simp only [compress]
@[simp] theorem compress_buf (s : State) : (compress s).buf = s.buf := by simp only [compress]
@[simp] theorem compress_buflen (s : State) : (compress s).buflen = s.buflen := by simp only [compress]
@[simp] theorem compress_bitlen (s : State) : (compress s).bitlen = s.bitlen := by simp only [compress]
@[simp] theorem compress_lenOvf (s : State) : (compress s).lenOvf = s.lenOvf := by simp only [compress]
theorem compress_scratch (s : State) : (compress s).scratch = compressScratch s.h s.buf s.scratch := by simp only [compress]
@[simp] theorem compress_total (s : State) : (compress s).total = s.total := by simp only [compress]
@[simp] theorem compress_digest (s : State) : (compress s).digest = s.digest := by simp only [compress]
@[simp] theorem compress_phase (s : State) : (compress s).phase = s.phase := by simp only [compress]
@[simp] theorem compress_fcause (s : State) : (compress s).fcause = s.fcause := by simp only [compress]
@[simp] theorem compress_busy (s : State) : (compress s).busy = s.busy := by simp only [compress]
@[simp] theorem compress_inputs (s : State) : (compress s).inputs = s.inputs := by simp only [compress]
@[simp] theorem compress_instant (s : State) : (compress s).instant = s.instant := by simp only [compress]
@[simp] theorem compress_left (s : State) : (compress s).left = s.left := by simp only [compress]
@[simp] theorem compress_settle (s : State) : (compress s).settle = s.settle := by simp only [compress]
@[simp] theorem compress_before (s : State) : (compress s).before = s.before := by simp only [compress]

/-! ### latchTotal -/

@[simp] theorem latchTotal_h (n : BitVec 6) (s : State) : (latchTotal n s).h = s.h := rfl
@[simp] theorem latchTotal_buf (n : BitVec 6) (s : State) : (latchTotal n s).buf = s.buf := rfl
@[simp] theorem latchTotal_buflen (n : BitVec 6) (s : State) : (latchTotal n s).buflen = s.buflen := rfl
@[simp] theorem latchTotal_bitlen (n : BitVec 6) (s : State) : (latchTotal n s).bitlen = s.bitlen := rfl
@[simp] theorem latchTotal_lenOvf (n : BitVec 6) (s : State) : (latchTotal n s).lenOvf = s.lenOvf := rfl
@[simp] theorem latchTotal_scratch (n : BitVec 6) (s : State) : (latchTotal n s).scratch = s.scratch := rfl
@[simp] theorem latchTotal_total (n : BitVec 6) (s : State) : (latchTotal n s).total = add64 s.bitlen (bufferedBits n) := rfl
@[simp] theorem latchTotal_digest (n : BitVec 6) (s : State) : (latchTotal n s).digest = s.digest := rfl
@[simp] theorem latchTotal_phase (n : BitVec 6) (s : State) : (latchTotal n s).phase = s.phase := rfl
@[simp] theorem latchTotal_fcause (n : BitVec 6) (s : State) : (latchTotal n s).fcause = s.fcause := rfl
@[simp] theorem latchTotal_busy (n : BitVec 6) (s : State) : (latchTotal n s).busy = s.busy := rfl
@[simp] theorem latchTotal_inputs (n : BitVec 6) (s : State) : (latchTotal n s).inputs = s.inputs := rfl
@[simp] theorem latchTotal_instant (n : BitVec 6) (s : State) : (latchTotal n s).instant = s.instant := rfl
@[simp] theorem latchTotal_left (n : BitVec 6) (s : State) : (latchTotal n s).left = s.left := rfl
@[simp] theorem latchTotal_settle (n : BitVec 6) (s : State) : (latchTotal n s).settle = s.settle := rfl
@[simp] theorem latchTotal_before (n : BitVec 6) (s : State) : (latchTotal n s).before = s.before := rfl

/-! ### storePadByte -/

@[simp] theorem storePadByte_h (n : BitVec 6) (s : State) : (storePadByte n s).h = s.h := by simp only [storePadByte]
@[simp] theorem storePadByte_buf (n : BitVec 6) (s : State) : (storePadByte n s).buf = memWrite s.buf n.toNat 1 padByte := by simp only [storePadByte]
@[simp] theorem storePadByte_buflen (n : BitVec 6) (s : State) : (storePadByte n s).buflen = s.buflen := by simp only [storePadByte]
@[simp] theorem storePadByte_bitlen (n : BitVec 6) (s : State) : (storePadByte n s).bitlen = s.bitlen := by simp only [storePadByte]
@[simp] theorem storePadByte_lenOvf (n : BitVec 6) (s : State) : (storePadByte n s).lenOvf = s.lenOvf := by simp only [storePadByte]
@[simp] theorem storePadByte_scratch (n : BitVec 6) (s : State) : (storePadByte n s).scratch = s.scratch := by simp only [storePadByte]
@[simp] theorem storePadByte_total (n : BitVec 6) (s : State) : (storePadByte n s).total = s.total := by simp only [storePadByte]
@[simp] theorem storePadByte_digest (n : BitVec 6) (s : State) : (storePadByte n s).digest = s.digest := by simp only [storePadByte]
@[simp] theorem storePadByte_phase (n : BitVec 6) (s : State) : (storePadByte n s).phase = s.phase := by simp only [storePadByte]
@[simp] theorem storePadByte_fcause (n : BitVec 6) (s : State) : (storePadByte n s).fcause = s.fcause := by simp only [storePadByte]
@[simp] theorem storePadByte_busy (n : BitVec 6) (s : State) : (storePadByte n s).busy = s.busy := by simp only [storePadByte]
@[simp] theorem storePadByte_inputs (n : BitVec 6) (s : State) : (storePadByte n s).inputs = s.inputs := by simp only [storePadByte]
@[simp] theorem storePadByte_instant (n : BitVec 6) (s : State) : (storePadByte n s).instant = s.instant := by simp only [storePadByte]
@[simp] theorem storePadByte_left (n : BitVec 6) (s : State) : (storePadByte n s).left = s.left := by simp only [storePadByte]
@[simp] theorem storePadByte_settle (n : BitVec 6) (s : State) : (storePadByte n s).settle = s.settle := by simp only [storePadByte]
@[simp] theorem storePadByte_before (n : BitVec 6) (s : State) : (storePadByte n s).before = s.before := by simp only [storePadByte]

/-! ### zeroFill -/

@[simp] theorem zeroFill_h (first last : Nat) (s : State) : (zeroFill first last s).h = s.h := by simp only [zeroFill]
@[simp] theorem zeroFill_buf (first last : Nat) (s : State) : (zeroFill first last s).buf = forLoop first last writeZero s.buf := by simp only [zeroFill]
@[simp] theorem zeroFill_buflen (first last : Nat) (s : State) : (zeroFill first last s).buflen = s.buflen := by simp only [zeroFill]
@[simp] theorem zeroFill_bitlen (first last : Nat) (s : State) : (zeroFill first last s).bitlen = s.bitlen := by simp only [zeroFill]
@[simp] theorem zeroFill_lenOvf (first last : Nat) (s : State) : (zeroFill first last s).lenOvf = s.lenOvf := by simp only [zeroFill]
@[simp] theorem zeroFill_scratch (first last : Nat) (s : State) : (zeroFill first last s).scratch = s.scratch := by simp only [zeroFill]
@[simp] theorem zeroFill_total (first last : Nat) (s : State) : (zeroFill first last s).total = s.total := by simp only [zeroFill]
@[simp] theorem zeroFill_digest (first last : Nat) (s : State) : (zeroFill first last s).digest = s.digest := by simp only [zeroFill]
@[simp] theorem zeroFill_phase (first last : Nat) (s : State) : (zeroFill first last s).phase = s.phase := by simp only [zeroFill]
@[simp] theorem zeroFill_fcause (first last : Nat) (s : State) : (zeroFill first last s).fcause = s.fcause := by simp only [zeroFill]
@[simp] theorem zeroFill_busy (first last : Nat) (s : State) : (zeroFill first last s).busy = s.busy := by simp only [zeroFill]
@[simp] theorem zeroFill_inputs (first last : Nat) (s : State) : (zeroFill first last s).inputs = s.inputs := by simp only [zeroFill]
@[simp] theorem zeroFill_instant (first last : Nat) (s : State) : (zeroFill first last s).instant = s.instant := by simp only [zeroFill]
@[simp] theorem zeroFill_left (first last : Nat) (s : State) : (zeroFill first last s).left = s.left := by simp only [zeroFill]
@[simp] theorem zeroFill_settle (first last : Nat) (s : State) : (zeroFill first last s).settle = s.settle := by simp only [zeroFill]
@[simp] theorem zeroFill_before (first last : Nat) (s : State) : (zeroFill first last s).before = s.before := by simp only [zeroFill]

/-! ### storeLength -/

@[simp] theorem storeLength_h (s : State) : (storeLength s).h = s.h := by simp only [storeLength]
@[simp] theorem storeLength_buf (s : State) : (storeLength s).buf = memWrite s.buf lengthOffset 8 s.total := by simp only [storeLength]
@[simp] theorem storeLength_buflen (s : State) : (storeLength s).buflen = s.buflen := by simp only [storeLength]
@[simp] theorem storeLength_bitlen (s : State) : (storeLength s).bitlen = s.bitlen := by simp only [storeLength]
@[simp] theorem storeLength_lenOvf (s : State) : (storeLength s).lenOvf = s.lenOvf := by simp only [storeLength]
@[simp] theorem storeLength_scratch (s : State) : (storeLength s).scratch = s.scratch := by simp only [storeLength]
@[simp] theorem storeLength_total (s : State) : (storeLength s).total = s.total := by simp only [storeLength]
@[simp] theorem storeLength_digest (s : State) : (storeLength s).digest = s.digest := by simp only [storeLength]
@[simp] theorem storeLength_phase (s : State) : (storeLength s).phase = s.phase := by simp only [storeLength]
@[simp] theorem storeLength_fcause (s : State) : (storeLength s).fcause = s.fcause := by simp only [storeLength]
@[simp] theorem storeLength_busy (s : State) : (storeLength s).busy = s.busy := by simp only [storeLength]
@[simp] theorem storeLength_inputs (s : State) : (storeLength s).inputs = s.inputs := by simp only [storeLength]
@[simp] theorem storeLength_instant (s : State) : (storeLength s).instant = s.instant := by simp only [storeLength]
@[simp] theorem storeLength_left (s : State) : (storeLength s).left = s.left := by simp only [storeLength]
@[simp] theorem storeLength_settle (s : State) : (storeLength s).settle = s.settle := by simp only [storeLength]
@[simp] theorem storeLength_before (s : State) : (storeLength s).before = s.before := by simp only [storeLength]

/-! ### writeDigest -/

@[simp] theorem writeDigest_h (s : State) : (writeDigest s).h = s.h := by simp only [writeDigest]
@[simp] theorem writeDigest_buf (s : State) : (writeDigest s).buf = s.buf := by simp only [writeDigest]
@[simp] theorem writeDigest_buflen (s : State) : (writeDigest s).buflen = s.buflen := by simp only [writeDigest]
@[simp] theorem writeDigest_bitlen (s : State) : (writeDigest s).bitlen = s.bitlen := by simp only [writeDigest]
@[simp] theorem writeDigest_lenOvf (s : State) : (writeDigest s).lenOvf = s.lenOvf := by simp only [writeDigest]
@[simp] theorem writeDigest_scratch (s : State) : (writeDigest s).scratch = s.scratch := by simp only [writeDigest]
@[simp] theorem writeDigest_total (s : State) : (writeDigest s).total = s.total := by simp only [writeDigest]
@[simp] theorem writeDigest_digest (s : State) : (writeDigest s).digest = serialise s.h s.digest := by simp only [writeDigest]
@[simp] theorem writeDigest_phase (s : State) : (writeDigest s).phase = s.phase := by simp only [writeDigest]
@[simp] theorem writeDigest_fcause (s : State) : (writeDigest s).fcause = s.fcause := by simp only [writeDigest]
@[simp] theorem writeDigest_busy (s : State) : (writeDigest s).busy = s.busy := by simp only [writeDigest]
@[simp] theorem writeDigest_inputs (s : State) : (writeDigest s).inputs = s.inputs := by simp only [writeDigest]
@[simp] theorem writeDigest_instant (s : State) : (writeDigest s).instant = s.instant := by simp only [writeDigest]
@[simp] theorem writeDigest_left (s : State) : (writeDigest s).left = s.left := by simp only [writeDigest]
@[simp] theorem writeDigest_settle (s : State) : (writeDigest s).settle = s.settle := by simp only [writeDigest]
@[simp] theorem writeDigest_before (s : State) : (writeDigest s).before = s.before := by simp only [writeDigest]

/-! ### enterDone -/

@[simp] theorem enterDone_h (s : State) : (enterDone s).h = s.h := rfl
@[simp] theorem enterDone_buf (s : State) : (enterDone s).buf = s.buf := rfl
@[simp] theorem enterDone_buflen (s : State) : (enterDone s).buflen = s.buflen := rfl
@[simp] theorem enterDone_bitlen (s : State) : (enterDone s).bitlen = s.bitlen := rfl
@[simp] theorem enterDone_lenOvf (s : State) : (enterDone s).lenOvf = s.lenOvf := rfl
@[simp] theorem enterDone_scratch (s : State) : (enterDone s).scratch = s.scratch := rfl
@[simp] theorem enterDone_total (s : State) : (enterDone s).total = s.total := rfl
@[simp] theorem enterDone_digest (s : State) : (enterDone s).digest = s.digest := rfl
@[simp] theorem enterDone_phase (s : State) : (enterDone s).phase = .done := rfl
@[simp] theorem enterDone_fcause (s : State) : (enterDone s).fcause = s.fcause := rfl
@[simp] theorem enterDone_busy (s : State) : (enterDone s).busy = s.busy := rfl
@[simp] theorem enterDone_inputs (s : State) : (enterDone s).inputs = s.inputs := rfl
@[simp] theorem enterDone_instant (s : State) : (enterDone s).instant = s.instant := rfl
@[simp] theorem enterDone_left (s : State) : (enterDone s).left = s.left := rfl
@[simp] theorem enterDone_settle (s : State) : (enterDone s).settle = s.settle := rfl
@[simp] theorem enterDone_before (s : State) : (enterDone s).before = s.before := rfl

/-! ### takeSample -/

@[simp] theorem takeSample_h (s : State) : (takeSample s).h = s.h := rfl
@[simp] theorem takeSample_buf (s : State) : (takeSample s).buf = s.buf := rfl
@[simp] theorem takeSample_buflen (s : State) : (takeSample s).buflen = s.buflen := rfl
@[simp] theorem takeSample_bitlen (s : State) : (takeSample s).bitlen = s.bitlen := rfl
@[simp] theorem takeSample_lenOvf (s : State) : (takeSample s).lenOvf = s.lenOvf := rfl
@[simp] theorem takeSample_scratch (s : State) : (takeSample s).scratch = s.scratch := rfl
@[simp] theorem takeSample_total (s : State) : (takeSample s).total = s.total := rfl
@[simp] theorem takeSample_digest (s : State) : (takeSample s).digest = s.digest := rfl
@[simp] theorem takeSample_phase (s : State) : (takeSample s).phase = s.phase := rfl
@[simp] theorem takeSample_fcause (s : State) : (takeSample s).fcause = s.fcause := rfl
@[simp] theorem takeSample_busy (s : State) : (takeSample s).busy = s.busy := rfl
@[simp] theorem takeSample_inputs (s : State) : (takeSample s).inputs = s.inputs.tail := rfl
@[simp] theorem takeSample_instant (s : State) : (takeSample s).instant = s.instant + 1 := rfl
@[simp] theorem takeSample_left (s : State) : (takeSample s).left = s.left := rfl
@[simp] theorem takeSample_settle (s : State) : (takeSample s).settle = s.settle := rfl
@[simp] theorem takeSample_before (s : State) : (takeSample s).before = s.before := rfl

/-! ### beginFlight -/

@[simp] theorem beginFlight_h (old : State) (w : CmdWord) (s : State) : (beginFlight old w s).h = s.h := rfl
@[simp] theorem beginFlight_buf (old : State) (w : CmdWord) (s : State) : (beginFlight old w s).buf = s.buf := rfl
@[simp] theorem beginFlight_buflen (old : State) (w : CmdWord) (s : State) : (beginFlight old w s).buflen = s.buflen := rfl
@[simp] theorem beginFlight_bitlen (old : State) (w : CmdWord) (s : State) : (beginFlight old w s).bitlen = s.bitlen := rfl
@[simp] theorem beginFlight_lenOvf (old : State) (w : CmdWord) (s : State) : (beginFlight old w s).lenOvf = s.lenOvf := rfl
@[simp] theorem beginFlight_scratch (old : State) (w : CmdWord) (s : State) : (beginFlight old w s).scratch = s.scratch := rfl
@[simp] theorem beginFlight_total (old : State) (w : CmdWord) (s : State) : (beginFlight old w s).total = s.total := rfl
@[simp] theorem beginFlight_digest (old : State) (w : CmdWord) (s : State) : (beginFlight old w s).digest = s.digest := rfl
@[simp] theorem beginFlight_phase (old : State) (w : CmdWord) (s : State) : (beginFlight old w s).phase = s.phase := rfl
@[simp] theorem beginFlight_fcause (old : State) (w : CmdWord) (s : State) : (beginFlight old w s).fcause = s.fcause := rfl
@[simp] theorem beginFlight_busy (old : State) (w : CmdWord) (s : State) : (beginFlight old w s).busy = true := rfl
@[simp] theorem beginFlight_inputs (old : State) (w : CmdWord) (s : State) : (beginFlight old w s).inputs = s.inputs := rfl
@[simp] theorem beginFlight_instant (old : State) (w : CmdWord) (s : State) : (beginFlight old w s).instant = s.instant := rfl
@[simp] theorem beginFlight_left (old : State) (w : CmdWord) (s : State) : (beginFlight old w s).left = latencyOf w old := rfl
@[simp] theorem beginFlight_settle (old : State) (w : CmdWord) (s : State) : (beginFlight old w s).settle = settlePoints w old := rfl
@[simp] theorem beginFlight_before (old : State) (w : CmdWord) (s : State) : (beginFlight old w s).before = statusOf old := rfl

/-! ### placeCommand -/

@[simp] theorem placeCommand_h (w : CmdWord) (s : State) : (placeCommand w s).h = s.h := rfl
@[simp] theorem placeCommand_buf (w : CmdWord) (s : State) : (placeCommand w s).buf = s.buf := rfl
@[simp] theorem placeCommand_buflen (w : CmdWord) (s : State) : (placeCommand w s).buflen = s.buflen := rfl
@[simp] theorem placeCommand_bitlen (w : CmdWord) (s : State) : (placeCommand w s).bitlen = s.bitlen := rfl
@[simp] theorem placeCommand_lenOvf (w : CmdWord) (s : State) : (placeCommand w s).lenOvf = s.lenOvf := rfl
@[simp] theorem placeCommand_scratch (w : CmdWord) (s : State) : (placeCommand w s).scratch = s.scratch := rfl
@[simp] theorem placeCommand_total (w : CmdWord) (s : State) : (placeCommand w s).total = s.total := rfl
@[simp] theorem placeCommand_digest (w : CmdWord) (s : State) : (placeCommand w s).digest = s.digest := rfl
@[simp] theorem placeCommand_phase (w : CmdWord) (s : State) : (placeCommand w s).phase = s.phase := rfl
@[simp] theorem placeCommand_fcause (w : CmdWord) (s : State) : (placeCommand w s).fcause = s.fcause := rfl
@[simp] theorem placeCommand_busy (w : CmdWord) (s : State) : (placeCommand w s).busy = false := rfl
@[simp] theorem placeCommand_inputs (w : CmdWord) (s : State) : (placeCommand w s).inputs = PortSample.present w :: s.inputs.tail := rfl
@[simp] theorem placeCommand_instant (w : CmdWord) (s : State) : (placeCommand w s).instant = s.instant := rfl
@[simp] theorem placeCommand_left (w : CmdWord) (s : State) : (placeCommand w s).left = 0 := rfl
@[simp] theorem placeCommand_settle (w : CmdWord) (s : State) : (placeCommand w s).settle = s.settle := rfl
@[simp] theorem placeCommand_before (w : CmdWord) (s : State) : (placeCommand w s).before = s.before := rfl

/-! ### flightEdge -/

@[simp] theorem flightEdge_h (s : State) : (flightEdge s).h = s.h := by unfold flightEdge; split <;> rfl
@[simp] theorem flightEdge_buf (s : State) : (flightEdge s).buf = s.buf := by unfold flightEdge; split <;> rfl
@[simp] theorem flightEdge_buflen (s : State) : (flightEdge s).buflen = s.buflen := by unfold flightEdge; split <;> rfl
@[simp] theorem flightEdge_bitlen (s : State) : (flightEdge s).bitlen = s.bitlen := by unfold flightEdge; split <;> rfl
@[simp] theorem flightEdge_lenOvf (s : State) : (flightEdge s).lenOvf = s.lenOvf := by unfold flightEdge; split <;> rfl
@[simp] theorem flightEdge_scratch (s : State) : (flightEdge s).scratch = s.scratch := by unfold flightEdge; split <;> rfl
@[simp] theorem flightEdge_total (s : State) : (flightEdge s).total = s.total := by unfold flightEdge; split <;> rfl
@[simp] theorem flightEdge_digest (s : State) : (flightEdge s).digest = s.digest := by unfold flightEdge; split <;> rfl
@[simp] theorem flightEdge_phase (s : State) : (flightEdge s).phase = s.phase := by unfold flightEdge; split <;> rfl
@[simp] theorem flightEdge_fcause (s : State) : (flightEdge s).fcause = s.fcause := by unfold flightEdge; split <;> rfl
@[simp] theorem flightEdge_inputs (s : State) : (flightEdge s).inputs = s.inputs := by unfold flightEdge; split <;> rfl
@[simp] theorem flightEdge_instant (s : State) : (flightEdge s).instant = s.instant := by unfold flightEdge; split <;> rfl
@[simp] theorem flightEdge_settle (s : State) : (flightEdge s).settle = s.settle := by unfold flightEdge; split <;> rfl
@[simp] theorem flightEdge_before (s : State) : (flightEdge s).before = s.before := by unfold flightEdge; split <;> rfl

@[simp] theorem flightEdge_left (s : State) : (flightEdge s).left = s.left - 1 := by
  unfold flightEdge; split <;> simp_all

/-- BUSY falls at this edge exactly when at most one cycle was left (10_state.md R40). -/
theorem flightEdge_busy {s : State} (h : s.busy = true) : (flightEdge s).busy = decide (1 < s.left) := by
  unfold flightEdge
  split
  · rename_i hl; simp [Nat.not_lt.mpr hl]
  · rename_i hl; simp [h, Nat.not_le.mp hl]

/-! ### resetEvent: the fields reset determines, and the three it leaves alone -/

@[simp] theorem resetEvent_buflen (s : State) : (resetEvent s).buflen = 0 := rfl
@[simp] theorem resetEvent_bitlen (s : State) : (resetEvent s).bitlen = 0 := rfl
@[simp] theorem resetEvent_lenOvf (s : State) : (resetEvent s).lenOvf = false := rfl
@[simp] theorem resetEvent_phase (s : State) : (resetEvent s).phase = .idle := rfl
@[simp] theorem resetEvent_fcause (s : State) : (resetEvent s).fcause = .none := rfl
@[simp] theorem resetEvent_busy (s : State) : (resetEvent s).busy = true := rfl
@[simp] theorem resetEvent_left (s : State) : (resetEvent s).left = Config.resetLatency s.instant (registerValues s) := rfl
@[simp] theorem resetEvent_settle (s : State) : (resetEvent s).settle = s.settle := rfl
@[simp] theorem resetEvent_before (s : State) : (resetEvent s).before = StatusView.atReset := rfl
@[simp] theorem resetEvent_inputs (s : State) : (resetEvent s).inputs = s.inputs := rfl
@[simp] theorem resetEvent_instant (s : State) : (resetEvent s).instant = s.instant := rfl

/-! ### holdEdge -/

@[simp] theorem holdEdge_h (s : State) : (holdEdge s).h = s.h := by unfold holdEdge; split <;> rfl
@[simp] theorem holdEdge_buf (s : State) : (holdEdge s).buf = s.buf := by unfold holdEdge; split <;> rfl
@[simp] theorem holdEdge_buflen (s : State) : (holdEdge s).buflen = s.buflen := by unfold holdEdge; split <;> rfl
@[simp] theorem holdEdge_bitlen (s : State) : (holdEdge s).bitlen = s.bitlen := by unfold holdEdge; split <;> rfl
@[simp] theorem holdEdge_lenOvf (s : State) : (holdEdge s).lenOvf = s.lenOvf := by unfold holdEdge; split <;> rfl
@[simp] theorem holdEdge_scratch (s : State) : (holdEdge s).scratch = s.scratch := by unfold holdEdge; split <;> rfl
@[simp] theorem holdEdge_total (s : State) : (holdEdge s).total = s.total := by unfold holdEdge; split <;> rfl
@[simp] theorem holdEdge_digest (s : State) : (holdEdge s).digest = s.digest := by unfold holdEdge; split <;> rfl
@[simp] theorem holdEdge_phase (s : State) : (holdEdge s).phase = s.phase := by unfold holdEdge; split <;> rfl
@[simp] theorem holdEdge_fcause (s : State) : (holdEdge s).fcause = s.fcause := by unfold holdEdge; split <;> rfl
@[simp] theorem holdEdge_inputs (s : State) : (holdEdge s).inputs = s.inputs := by unfold holdEdge; split <;> rfl
@[simp] theorem holdEdge_instant (s : State) : (holdEdge s).instant = s.instant := by unfold holdEdge; split <;> rfl
@[simp] theorem holdEdge_settle (s : State) : (holdEdge s).settle = s.settle := by unfold holdEdge; split <;> rfl

/-- While rst is asserted BUSY = 1 (70_reset_and_hazards.md R221). -/
@[simp] theorem holdEdge_busy (s : State) : (holdEdge s).busy = true := by
  unfold holdEdge; split <;> simp_all

/-- With a command in flight the count goes on but does not end (log entry 13). -/
theorem holdEdge_of_busy {s : State} (h : s.busy = true) : holdEdge s = { s with left := max 1 (s.left - 1) } := by
  simp only [holdEdge, h, if_true]

/-- With none in flight the CORE is held for a free number of cycles, at most T_RESET (log entry 13). -/
theorem holdEdge_of_ready {s : State} (h : s.busy = false) :
    holdEdge s = { s with
      busy := true, left := Config.resetLatency s.instant (registerValues s), before := statusOf s } := by
  simp only [holdEdge, h, if_false, Bool.false_eq_true]

/-- The wait for readiness after a reset is at least one cycle and at most T_RESET (70_reset_and_hazards.md R221, R239). -/
theorem resetLatency_bounds (instant : Nat) (data : List Nat) :
    1 ≤ Config.resetLatency instant data ∧ Config.resetLatency instant data ≤ Config.tReset := by
  unfold Config.resetLatency Config.tReset
  omega

/-- A CORE held by rst is busy with cycles left, as the invariant asks. -/
theorem holdEdge_left_pos (s : State) : 1 ≤ (holdEdge s).left := by
  unfold holdEdge
  split
  · exact Nat.le_max_left _ _
  · exact (resetLatency_bounds _ _).1


/-- A command accepted in FAULT leaves the state as it is (60_exceptions.md R199). -/
@[simp] theorem discard_eq (s : State) : discardWord s = s := rfl

end Sys2Proof.Machine
end

