-- ==== Sys2Proof/Laws/Exec.lean ====
section
/-! SUPPORT. What a command and a step can do, said once: exec as one equation, and an inversion lemma for the
step. Later proofs cite these and do not unfold the step. -/

namespace Sys2Proof.Machine

/-- The state INIT leaves, in each phase (41_stream.md R151, 60_exceptions.md R199). -/
def afterInit (s : State) : State := if s.phase = .fault then s else createContext s

/-- The state UPDATE leaves, in each phase (41_stream.md R152, 60_exceptions.md R190, R199). -/
def afterUpdate (d : Byte) (s : State) : State :=
  match s.phase with
  | .fault => s
  | .idle => raiseFault .updateNoContext s
  | .active => appendByte d s
  | .done => raiseFault .updateAfterFinal s

/-- The state FINAL leaves, in each phase (42_finalize.md R170, 60_exceptions.md R190, R199). -/
def afterFinal (s : State) : State :=
  match s.phase with
  | .fault => s
  | .idle => raiseFault .finalNoContext s
  | .active => finishMessage s
  | .done => raiseFault .finalAfterFinal s

/-- The state a command leaves. -/
def afterCommand (i : Instr) (s : State) : State :=
  match i with
  | .init => afterInit s
  | .update d => afterUpdate d s
  | .final => afterFinal s

/-- Every command answers a next state, and which one. -/
theorem exec_eq (i : Instr) (s : State) : exec i s = .next (afterCommand i s) := by
  cases i <;> cases h : s.phase <;>
    simp [exec, execInit, execUpdate, execFinal, afterCommand, afterInit, afterUpdate, afterFinal, h]

/-- The state an accepted word leaves, before it is in flight. -/
def afterAccept (w : CmdWord) (s : State) : State :=
  match decode w with
  | .command i => afterCommand i s
  | .reserved _ => rejectReserved s

theorem dispatchWord_eq (w : CmdWord) (s : State) : dispatchWord w s = .next (afterAccept w s) := by
  unfold dispatchWord afterAccept
  cases decode w with
  | command i => exact exec_eq i s
  | reserved r => rfl

/-- The state a step leaves. -/
def afterStep (s : State) : State :=
  if resetTakes s then resetEvent (takeSample s)
  else if !(nextSample s).clk then takeSample s
  else if (nextSample s).rst.isSome then holdEdge (takeSample s)
  else if s.busy then flightEdge (takeSample s)
  else if (nextSample s).cmdValid then
    beginFlight (takeSample s) (nextSample s).cmd (afterAccept (nextSample s).cmd (takeSample s))
  else takeSample s

/-- Every step answers a next state, and which one. -/
theorem step_eq (s : State) : step s = .next (afterStep s) := by
  unfold step advance afterStep acceptWord
  rw [dispatchWord_eq]
  repeat' (first | rfl | split)

/-- Reset takes effect only where rst is asserted (70_reset_and_hazards.md R221). -/
theorem resetTakes_of_none {s : State} (h : (nextSample s).rst = none) : resetTakes s = false := by
  simp only [resetTakes, h]

/-- A step that accepts a word is a clock edge with rst not asserted, at which the CORE is ready (30_encoding.md R91). -/
theorem accepts_iff {s : State} : accepts s = true ↔
    (nextSample s).clk = true ∧ (nextSample s).rst = none ∧ s.busy = false ∧ (nextSample s).cmdValid = true := by
  simp [accepts, and_assoc]

/-- While a command waits, holding it is to show it again (70_reset_and_hazards.md R230). -/
theorem hostHolds_of_waits {s : State} (h : commandWaits s = true) : hostHolds s =
    ((nextSample (takeSample s)).cmdValid && decide ((nextSample (takeSample s)).cmd = (nextSample s).cmd)) := by
  simp only [hostHolds, h, Bool.not_true, Bool.false_or]

/-- A command that does not wait asks nothing of the host: none presented, accepted, or lost to a reset (R223, R230). -/
theorem hostHolds_of_not_waits {s : State} (h : commandWaits s = false) : hostHolds s = true := by
  simp only [hostHolds, h, Bool.not_false, Bool.true_or]

/-- Everything a step can do: reset; an instant between two edges; an edge at which rst is asserted without effect; a
cycle of waiting; an accepted word; an idle edge. -/
theorem step_cases {s t : State} (h : step s = .next t) :
    (resetTakes s = true ∧ t = resetEvent (takeSample s)) ∨
    (resetTakes s = false ∧ accepts s = false ∧ (nextSample s).clk = false ∧ t = takeSample s) ∨
    (resetTakes s = false ∧ accepts s = false ∧ (nextSample s).clk = true ∧ (nextSample s).rst ≠ none ∧
      t = holdEdge (takeSample s)) ∨
    (resetTakes s = false ∧ accepts s = false ∧ (nextSample s).clk = true ∧ (nextSample s).rst = none ∧ s.busy = true ∧
      t = flightEdge (takeSample s)) ∨
    (resetTakes s = false ∧ accepts s = true ∧ s.busy = false ∧
      t = beginFlight (takeSample s) (nextSample s).cmd (afterAccept (nextSample s).cmd (takeSample s))) ∨
    (resetTakes s = false ∧ accepts s = false ∧ (nextSample s).clk = true ∧ (nextSample s).rst = none ∧
      s.busy = false ∧ t = takeSample s) := by
  rw [step_eq] at h
  have ht : t = afterStep s := by cases h; rfl
  subst ht
  unfold afterStep accepts
  cases resetTakes s <;> cases (nextSample s).clk <;> cases (nextSample s).rst <;> cases s.busy <;>
    cases (nextSample s).cmdValid <;> simp

end Sys2Proof.Machine
end

