-- ==== Sys2Proof/Laws/Frames.lean ====
section
/-! SUPPORT. The frames of the composite effects: what the padding, UPDATE, FINAL and any accepted word leave alone.
Later proofs cite these and do not split the branches again. -/

namespace Sys2Proof.Machine

/-! ### padBuffer -/

@[simp] theorem padBuffer_buflen (n : BitVec 6) (s : State) : (padBuffer n s).buflen = s.buflen := by unfold padBuffer; split <;> simp
@[simp] theorem padBuffer_bitlen (n : BitVec 6) (s : State) : (padBuffer n s).bitlen = s.bitlen := by unfold padBuffer; split <;> simp
@[simp] theorem padBuffer_lenOvf (n : BitVec 6) (s : State) : (padBuffer n s).lenOvf = s.lenOvf := by unfold padBuffer; split <;> simp
@[simp] theorem padBuffer_total (n : BitVec 6) (s : State) : (padBuffer n s).total = s.total := by unfold padBuffer; split <;> simp
@[simp] theorem padBuffer_digest (n : BitVec 6) (s : State) : (padBuffer n s).digest = s.digest := by unfold padBuffer; split <;> simp
@[simp] theorem padBuffer_phase (n : BitVec 6) (s : State) : (padBuffer n s).phase = s.phase := by unfold padBuffer; split <;> simp
@[simp] theorem padBuffer_fcause (n : BitVec 6) (s : State) : (padBuffer n s).fcause = s.fcause := by unfold padBuffer; split <;> simp
@[simp] theorem padBuffer_busy (n : BitVec 6) (s : State) : (padBuffer n s).busy = s.busy := by unfold padBuffer; split <;> simp
@[simp] theorem padBuffer_inputs (n : BitVec 6) (s : State) : (padBuffer n s).inputs = s.inputs := by unfold padBuffer; split <;> simp
@[simp] theorem padBuffer_instant (n : BitVec 6) (s : State) : (padBuffer n s).instant = s.instant := by unfold padBuffer; split <;> simp
@[simp] theorem padBuffer_left (n : BitVec 6) (s : State) : (padBuffer n s).left = s.left := by unfold padBuffer; split <;> simp
@[simp] theorem padBuffer_settle (n : BitVec 6) (s : State) : (padBuffer n s).settle = s.settle := by unfold padBuffer; split <;> simp
@[simp] theorem padBuffer_before (n : BitVec 6) (s : State) : (padBuffer n s).before = s.before := by unfold padBuffer; split <;> simp

/-! ### appendByte -/

@[simp] theorem appendByte_total (d : Byte) (s : State) : (appendByte d s).total = s.total := by unfold appendByte; split <;> simp
@[simp] theorem appendByte_digest (d : Byte) (s : State) : (appendByte d s).digest = s.digest := by unfold appendByte; split <;> simp
@[simp] theorem appendByte_phase (d : Byte) (s : State) : (appendByte d s).phase = s.phase := by unfold appendByte; split <;> simp
@[simp] theorem appendByte_fcause (d : Byte) (s : State) : (appendByte d s).fcause = s.fcause := by unfold appendByte; split <;> simp
@[simp] theorem appendByte_busy (d : Byte) (s : State) : (appendByte d s).busy = s.busy := by unfold appendByte; split <;> simp
@[simp] theorem appendByte_inputs (d : Byte) (s : State) : (appendByte d s).inputs = s.inputs := by unfold appendByte; split <;> simp
@[simp] theorem appendByte_instant (d : Byte) (s : State) : (appendByte d s).instant = s.instant := by unfold appendByte; split <;> simp
@[simp] theorem appendByte_left (d : Byte) (s : State) : (appendByte d s).left = s.left := by unfold appendByte; split <;> simp
@[simp] theorem appendByte_settle (d : Byte) (s : State) : (appendByte d s).settle = s.settle := by unfold appendByte; split <;> simp
@[simp] theorem appendByte_before (d : Byte) (s : State) : (appendByte d s).before = s.before := by unfold appendByte; split <;> simp

/-! ### finishMessage -/

@[simp] theorem finishMessage_buflen (s : State) : (finishMessage s).buflen = s.buflen := by simp [finishMessage]
@[simp] theorem finishMessage_bitlen (s : State) : (finishMessage s).bitlen = s.bitlen := by simp [finishMessage]
@[simp] theorem finishMessage_lenOvf (s : State) : (finishMessage s).lenOvf = s.lenOvf := by simp [finishMessage]
@[simp] theorem finishMessage_fcause (s : State) : (finishMessage s).fcause = s.fcause := by simp [finishMessage]
@[simp] theorem finishMessage_busy (s : State) : (finishMessage s).busy = s.busy := by simp [finishMessage]
@[simp] theorem finishMessage_inputs (s : State) : (finishMessage s).inputs = s.inputs := by simp [finishMessage]
@[simp] theorem finishMessage_instant (s : State) : (finishMessage s).instant = s.instant := by simp [finishMessage]
@[simp] theorem finishMessage_left (s : State) : (finishMessage s).left = s.left := by simp [finishMessage]
@[simp] theorem finishMessage_settle (s : State) : (finishMessage s).settle = s.settle := by simp [finishMessage]
@[simp] theorem finishMessage_before (s : State) : (finishMessage s).before = s.before := by simp [finishMessage]
@[simp] theorem finishMessage_phase (s : State) : (finishMessage s).phase = .done := by simp [finishMessage]

/-! ### Any command, any accepted word -/

@[simp] theorem afterCommand_busy (i : Instr) (s : State) : (afterCommand i s).busy = s.busy := by
  cases i <;> cases h : s.phase <;> simp [afterCommand, afterInit, afterUpdate, afterFinal, h]
@[simp] theorem afterCommand_inputs (i : Instr) (s : State) : (afterCommand i s).inputs = s.inputs := by
  cases i <;> cases h : s.phase <;> simp [afterCommand, afterInit, afterUpdate, afterFinal, h]
@[simp] theorem afterCommand_instant (i : Instr) (s : State) : (afterCommand i s).instant = s.instant := by
  cases i <;> cases h : s.phase <;> simp [afterCommand, afterInit, afterUpdate, afterFinal, h]
@[simp] theorem afterCommand_left (i : Instr) (s : State) : (afterCommand i s).left = s.left := by
  cases i <;> cases h : s.phase <;> simp [afterCommand, afterInit, afterUpdate, afterFinal, h]
@[simp] theorem afterCommand_settle (i : Instr) (s : State) : (afterCommand i s).settle = s.settle := by
  cases i <;> cases h : s.phase <;> simp [afterCommand, afterInit, afterUpdate, afterFinal, h]
@[simp] theorem afterCommand_before (i : Instr) (s : State) : (afterCommand i s).before = s.before := by
  cases i <;> cases h : s.phase <;> simp [afterCommand, afterInit, afterUpdate, afterFinal, h]
@[simp] theorem afterAccept_busy (w : CmdWord) (s : State) : (afterAccept w s).busy = s.busy := by
  unfold afterAccept rejectReserved
  cases decode w with
  | command i => simp
  | reserved r => dsimp only; split <;> simp
@[simp] theorem afterAccept_inputs (w : CmdWord) (s : State) : (afterAccept w s).inputs = s.inputs := by
  unfold afterAccept rejectReserved
  cases decode w with
  | command i => simp
  | reserved r => dsimp only; split <;> simp
@[simp] theorem afterAccept_instant (w : CmdWord) (s : State) : (afterAccept w s).instant = s.instant := by
  unfold afterAccept rejectReserved
  cases decode w with
  | command i => simp
  | reserved r => dsimp only; split <;> simp
@[simp] theorem afterAccept_left (w : CmdWord) (s : State) : (afterAccept w s).left = s.left := by
  unfold afterAccept rejectReserved
  cases decode w with
  | command i => simp
  | reserved r => dsimp only; split <;> simp
@[simp] theorem afterAccept_settle (w : CmdWord) (s : State) : (afterAccept w s).settle = s.settle := by
  unfold afterAccept rejectReserved
  cases decode w with
  | command i => simp
  | reserved r => dsimp only; split <;> simp
@[simp] theorem afterAccept_before (w : CmdWord) (s : State) : (afterAccept w s).before = s.before := by
  unfold afterAccept rejectReserved
  cases decode w with
  | command i => simp
  | reserved r => dsimp only; split <;> simp

/-- In FAULT every word leaves the state as it is (60_exceptions.md R199). -/
theorem afterAccept_of_fault (w : CmdWord) {s : State} (h : s.phase = .fault) : afterAccept w s = s := by
  unfold afterAccept rejectReserved
  cases decode w with
  | command i => cases i <;> simp [afterCommand, afterInit, afterUpdate, afterFinal, h]
  | reserved r => simp [h]

/-! ### Runs -/

theorem run_zero (s : State) : Sys2Proof.core.run 0 s = .next s := rfl

/-- A run of one more step, by what its first step answers. -/
theorem run_succ {s u : State} (h : step s = .next u) (n : Nat) :
    Sys2Proof.core.run (n + 1) s = Sys2Proof.core.run n u := by
  have h' : Sys2Proof.core.step s = .next u := h
  simp only [Host.Core.run, h']

/-- Running two command lists in turn, by what the first of them answers. -/
theorem execAll_cons (i : Instr) (rest : List Instr) (s : State) :
    execAll (i :: rest) s = execAll rest (afterCommand i s) := by
  rw [execAll, exec_eq]

/-- Command lists always answer a next state, and which one. -/
theorem execAll_eq (is : List Instr) (s : State) :
    execAll is s = .next (is.foldl (fun s i => afterCommand i s) s) := by
  induction is generalizing s with
  | nil => rfl
  | cons i rest ih => rw [execAll_cons, ih, List.foldl_cons]

end Sys2Proof.Machine
end

