-- ==== Sys2Proof/Laws/Loops.lean ====
section
/-! SUPPORT. The loop of the pseudocode: unrolling, splitting, and the one induction principle for it. -/

namespace Sys2Proof.Machine

@[simp] theorem loopFrom_zero {α : Type} (first : Nat) (body : Nat → α → α) (x : α) :
    loopFrom first 0 body x = x := rfl

theorem loopFrom_succ {α : Type} (first n : Nat) (body : Nat → α → α) (x : α) :
    loopFrom first (n + 1) body x = loopFrom (first + 1) n body (body first x) := rfl

/-- The last turn taken off: the loop of `n + 1` turns is the loop of `n` turns and then one more. -/
theorem loopFrom_succ_last {α : Type} (first n : Nat) (body : Nat → α → α) (x : α) :
    loopFrom first (n + 1) body x = body (first + n) (loopFrom first n body x) := by
  induction n generalizing first x with
  | zero => rfl
  | succ n ih =>
    rw [loopFrom_succ, ih, loopFrom_succ]
    congr 1
    omega

/-- What holds before the loop and is carried from each turn to the next holds after it. -/
theorem loopFrom_induct {α : Type} (P : Nat → α → Prop) (first n : Nat) (body : Nat → α → α) (x : α)
    (base : P first x)
    (turn : ∀ (i : Nat) (y : α), first ≤ i → i < first + n → P i y → P (i + 1) (body i y)) :
    P (first + n) (loopFrom first n body x) := by
  induction n with
  | zero => simpa using base
  | succ n ih =>
    rw [loopFrom_succ_last]
    have := ih (fun i y h1 h2 => turn i y h1 (by omega))
    exact turn (first + n) _ (by omega) (by omega) this

theorem forLoop_def {α : Type} (first last : Nat) (body : Nat → α → α) (x : α) :
    forLoop first last body x = loopFrom first (last + 1 - first) body x := rfl

/-- A loop whose first index is beyond its last runs zero times (42_finalize.md R170). -/
theorem forLoop_empty {α : Type} {first last : Nat} (h : last < first) (body : Nat → α → α) (x : α) :
    forLoop first last body x = x := by
  rw [forLoop_def, Nat.sub_eq_zero_of_le h, loopFrom_zero]

/-- The first turn of an inclusive loop. -/
theorem forLoop_first {α : Type} {first last : Nat} (h : first ≤ last) (body : Nat → α → α) (x : α) :
    forLoop first last body x = forLoop (first + 1) last body (body first x) := by
  rw [forLoop_def, forLoop_def, show last + 1 - first = (last + 1 - (first + 1)) + 1 by omega, loopFrom_succ]

/-- The last turn of an inclusive loop. -/
theorem forLoop_last {α : Type} {first last : Nat} (h : first ≤ last + 1) (body : Nat → α → α) (x : α) :
    forLoop first (last + 1) body x = body (last + 1) (forLoop first last body x) := by
  rw [forLoop_def, forLoop_def, show last + 1 + 1 - first = (last + 1 - first) + 1 by omega, loopFrom_succ_last]
  congr 1
  omega

/-- The induction principle for an inclusive loop that runs at least up to its last index. -/
theorem forLoop_induct {α : Type} (P : Nat → α → Prop) (first last : Nat) (body : Nat → α → α) (x : α)
    (range : first ≤ last + 1) (base : P first x)
    (turn : ∀ (i : Nat) (y : α), first ≤ i → i ≤ last → P i y → P (i + 1) (body i y)) :
    P (last + 1) (forLoop first last body x) := by
  have h := loopFrom_induct P first (last + 1 - first) body x base
    (fun i y h1 h2 => turn i y h1 (by omega))
  rwa [show first + (last + 1 - first) = last + 1 by omega] at h

end Sys2Proof.Machine
end

