-- ==== Sys2Proof/Laws/Memory.lean ====
section
/-! SUPPORT. The basic laws of the byte memories and of arrays listed by index: a read after a write to the same place
gives the value written, and a write leaves every other place alone (20_memory.md R66, R67). -/

namespace Sys2Proof.Machine

@[simp] theorem tabulate_getElem {α : Type} (n : Nat) (f : Nat → α) (i : Nat) (h : i < n) :
    (tabulate n f)[i] = f i := by
  simp [tabulate]

@[simp] theorem readByte_tabulate {n : Nat} (f : Nat → Byte) (i : Nat) :
    readByte (tabulate n f) i = if i < n then f i else 0 := by
  unfold readByte
  split
  · rename_i h; simp [h]
  · rename_i h; simp [h]

theorem readByte_of_lt {size : Nat} (m : Vector Byte size) (a : Nat) (h : a < size) : readByte m a = m[a] := by
  simp [readByte, h]

/-- Two byte memories are equal when every offset reads the same. -/
theorem memory_ext {size : Nat} {m m' : Vector Byte size} (h : ∀ a, a < size → readByte m a = readByte m' a) :
    m = m' := by
  ext i hi
  have := h i hi
  rw [readByte_of_lt m i hi, readByte_of_lt m' i hi] at this
  rw [this]

theorem readByte_writeByte {size : Nat} (m : Vector Byte size) (a b : Nat) (v : Byte) :
    readByte (writeByte m a v) b = if a = b ∧ b < size then v else readByte m b := by
  unfold readByte writeByte
  by_cases h : b < size
  · simp only [h, and_true, Vector.getElem?_eq_getElem, Option.getD_some]
    by_cases hab : a = b
    · subst hab; simp
    · simp [hab, Vector.getElem_setIfInBounds_ne]
  · simp [h]

/-- A read after a write to the same offset gives the value written. -/
theorem readByte_writeByte_same {size : Nat} (m : Vector Byte size) (a : Nat) (v : Byte) (h : a < size) :
    readByte (writeByte m a v) a = v := by
  simp [readByte_writeByte, h]

/-- A write leaves every other offset alone. -/
theorem readByte_writeByte_other {size : Nat} (m : Vector Byte size) (a b : Nat) (v : Byte) (h : a ≠ b) :
    readByte (writeByte m a v) b = readByte m b := by
  simp [readByte_writeByte, h]

/-- MemWrite as the loop of R67: one more byte at the end. -/
theorem foldl_writes_read {size : Nat} (f : Nat → Byte) (a n b : Nat) (m : Vector Byte size) :
    readByte ((List.range n).foldl (fun acc j => writeByte acc (a + j) (f j)) m) b =
      if a ≤ b ∧ b < a + n ∧ b < size then f (b - a) else readByte m b := by
  induction n with
  | zero => rw [if_neg (by omega), List.range_zero, List.foldl_nil]
  | succ n ih =>
    rw [List.range_succ, List.foldl_append, List.foldl_cons, List.foldl_nil, readByte_writeByte, ih]
    by_cases h : a + n = b ∧ b < size
    · obtain ⟨rfl, h2⟩ := h
      have : a ≤ a + n ∧ a + n < a + (n + 1) ∧ a + n < size := by omega
      rw [if_pos ⟨rfl, h2⟩, if_pos this]
      congr 1
      omega
    · rw [if_neg h]
      by_cases h3 : a ≤ b ∧ b < a + n ∧ b < size
      · rw [if_pos h3, if_pos (by omega)]
      · rw [if_neg h3, if_neg (by omega)]

/-- What MemWrite does to every offset (R67), within the array. -/
theorem readByte_memWrite {size : Nat} (m : Vector Byte size) (a n b : Nat) (v : BitVec (8 * n)) :
    readByte (memWrite m a n v) b =
      if a ≤ b ∧ b < a + n ∧ b < size then byteOf n v (b - a) else readByte m b :=
  foldl_writes_read (byteOf n v) a n b m

@[simp] theorem byteOf_one (v : Byte) : byteOf 1 v 0 = v := by
  simp [byteOf]

/-- A one-byte MemWrite (R67): the store of UPDATE and of the padding. -/
theorem readByte_memWrite_one {size : Nat} (m : Vector Byte size) (a b : Nat) (v : Byte) :
    readByte (memWrite m a 1 v) b = if a = b ∧ b < size then v else readByte m b := by
  rw [readByte_memWrite]
  by_cases h : a = b ∧ b < size
  · obtain ⟨rfl, h2⟩ := h
    simp [h2]
  · rw [if_neg h, if_neg (by omega)]

theorem readByte_writeZero {size : Nat} (m : Vector Byte size) (a b : Nat) :
    readByte (writeZero a m) b = if a = b ∧ b < size then 0 else readByte m b :=
  readByte_memWrite_one m a b 0

/-- Zero fill (42_finalize.md R172): offsets `first .. last` read 0, every other offset as before. -/
theorem readByte_zeroLoop {size : Nat} (m : Vector Byte size) (first last b : Nat) (h : first ≤ last + 1) :
    readByte (forLoop first last writeZero m) b =
      if first ≤ b ∧ b ≤ last ∧ b < size then 0 else readByte m b := by
  have := forLoop_induct
    (fun i acc => readByte acc b = if first ≤ b ∧ b < i ∧ b < size then (0 : Byte) else readByte m b)
    first last writeZero m h
    (by rw [if_neg (by omega)])
    (fun i y h1 h2 hy => by
      simp only [readByte_writeZero, hy]
      by_cases hb : i = b ∧ b < size
      · rw [if_pos hb, if_pos (by omega)]
      · rw [if_neg hb]
        by_cases h3 : first ≤ b ∧ b < i ∧ b < size
        · rw [if_pos h3, if_pos (by omega)]
        · rw [if_neg h3, if_neg (by omega)])
  rw [this]
  by_cases h3 : first ≤ b ∧ b < last + 1 ∧ b < size
  · rw [if_pos h3, if_pos (by omega)]
  · rw [if_neg h3, if_neg (by omega)]

end Sys2Proof.Machine
end

