-- ==== Sys2Proof/Laws/PerInstr.lean ====
section
/-! SUPPORT. What holds of every command as syntax, one lemma per constructor: its word selects its own row of the
opcode map and no other (30_encoding.md R96). -/

namespace Sys2Proof

/-- The row of the opcode map a command belongs to. -/
def rowOf : Instr → OpcodeRow
  | .init => initRow
  | .update _ => updateRow
  | .final => finalRow

namespace Laws.EncodesInItsRow

/-- The command is well-formed, and of the rows of the opcode map its word selects its own and no other. -/
def Statement (i : Instr) : Prop :=
  i.wf = true ∧ ∀ r ∈ opcodeRows, (r.selects (encode i) = true ↔ r = rowOf i)

theorem init : Statement .init := by unfold Statement; decide

theorem update (d : Byte) : Statement (.update d) := by
  refine ⟨rfl, ?_⟩
  revert d
  decide +kernel

theorem final : Statement .final := by unfold Statement; decide

end Laws.EncodesInItsRow

end Sys2Proof
end

