-- ==== Sys2Proof/Tests/Slice0.lean ====
section
/-! SUPPORT. The model's own tests. Expected values come from the spec: the opcode map (30_encoding.md R96) and the worked
examples of 95_test_vectors.md, whose section each test names. A theorem `witness_X` shows states and operands that
meet the hypotheses of the obligation `X`, clause by clause, at the ends of their ranges. -/

namespace Sys2Proof.Tests

open Sys2Proof Sys2Proof.Machine

/-- Whether an outcome is a next state with a property. -/
def nextHas (o : Host.Outcome State Fault Refusal) (p : State → Bool) : Bool :=
  match o with
  | .next s => p s
  | .fault _ => false
  | .refused _ => false

/-- An ACTIVE context with `n` bytes `d` buffered after whole blocks of `bits` bits; H is IV. -/
def active (n : BitVec 6) (d : Byte) (bits : BitVec 64) : State :=
  { State.reset with
    phase := .active, h := ivTable, buflen := n, bitlen := bits
    buf := tabulate 64 fun j => if j < n.toNat then d else 0xEE }

/-- A CORE in DONE. -/
def done : State := { State.reset with phase := .done, digest := Vector.replicate 32 0x5A, buflen := 3 }

/-- A CORE in FAULT. -/
def faulty : State := { State.reset with phase := .fault, fcause := .updateNoContext }

/-- The state with one word presented at the coming edge. -/
def presenting (w : CmdWord) (s : State) : State := { s with inputs := [PortSample.present w] }

/-- The state with reset asserted, wide enough in every RESET_STYLE, at the coming edge, a word on the channel beside
it. -/
def resetting (s : State) : State := { s with inputs := [⟨true, some Config.resetStyle.minWidth, true, 0x100⟩] }

/-- The same between two clock edges. -/
def resettingBetween (s : State) : State := { s with inputs := [⟨false, some Config.resetStyle.minWidth, true, 0x100⟩] }

theorem resetting_takes (s : State) : resetTakes (resetting s) = true := by
  simp [resetTakes, resetting, nextSample, wideEnough]

/-- A sample in which nothing asserts reset does not reset. -/
theorem presenting_quiet (w : CmdWord) (s : State) : resetTakes (presenting w s) = false := rfl

/-- The state with a command in flight, `n` cycles left, and another word already waiting. -/
def inFlight (n : Nat) (s : State) : State :=
  { s with busy := true, left := n, before := statusOf s, inputs := [PortSample.present 0x300] }

/-! ## Well-formedness: what it refuses (30_encoding.md R95, R99) -/

theorem test_wf_refuses_number_256 : (Operand.number 256).wf = false := by decide
theorem test_wf_takes_number_255 : (Operand.number 255).wf = true := by decide
theorem test_wf_refuses_line_feed : (Operand.character '\n').wf = false := by decide
theorem test_wf_refuses_delete : (Operand.character (Char.ofNat 0x7F)).wf = false := by decide
theorem test_wf_refuses_letter_beyond_ascii : (Operand.character (Char.ofNat 0xE9)).wf = false := by decide
theorem test_wf_takes_space_and_tilde :
    (Operand.character ' ').wf = true ∧ (Operand.character '~').wf = true := by decide
theorem test_wf_refuses_line : (SourceLine.update (.number 1000)).wf = false := by decide
theorem test_wf_refuses_program : programWf [.init, .update (.number 256), .final] = false := by decide

/-! ## Decoding, bit by bit from the opcode map (30_encoding.md R96; 95_test_vectors.md section 6) -/

theorem test_decode_init : decode 0b01_00000000 = .command .init := by decide
theorem test_decode_update : decode 0b10_01100001 = .command (.update 0x61) := by decide
theorem test_decode_update_lowest_bit : decode 0b10_00000001 = .command (.update 1) := by decide
theorem test_decode_update_highest_bit : decode 0b10_10000000 = .command (.update 0x80) := by decide
theorem test_decode_final : decode 0b11_00000000 = .command .final := by decide
theorem test_decode_all_zero_reserved : decode 0b00_00000000 = .reserved .opZero := by decide
theorem test_decode_init_with_data_reserved : decode 0b01_00000001 = .reserved .initData := by decide
theorem test_decode_all_ones_reserved : decode 0b11_11111111 = .reserved .finalData := by decide
theorem test_encode_words :
    encode .init = 0x100 ∧ encode (.update 0xAB) = 0x2AB ∧ encode .final = 0x300 := by decide
theorem test_table_word_ignores_bits_above_the_row : decodeTableWord 10 (0x400 + 0x261) = some (.update 0x61) := by decide
theorem test_table_word_refuses_long_number : decodeTableWord 16 0x400 = none := by decide

/-! ## Primitives and word functions (95_test_vectors.md section 2) -/

theorem test_rotr_shr :
    rotr 0x12345678 4 = 0x81234567 ∧ rotr 0x80000000 31 = 0x00000001 ∧ shr 0x12345678 16 = 0x00001234 ∧
      shr 0xffffffff 13 = 0x0007ffff := by decide
theorem test_sigmas :
    bigSigma0 0x80000000 = 0x20040200 ∧ bigSigma1 0x61626380 = 0xc0b865f2 ∧ smallSigma0 0x510e527f = 0x601c02a8 ∧
      smallSigma1 0x6a09e667 = 0xcfe5da3c := by decide
theorem test_ch_maj_truth_table :
    ch 0xf0f0f0f0 0xcccccccc 0xaaaaaaaa = 0xcacacaca ∧ maj 0xf0f0f0f0 0xcccccccc 0xaaaaaaaa = 0xe8e8e8e8 := by decide
theorem test_constants :
    kAt 0 = 0x428a2f98 ∧ kAt 15 = 0xc19bf174 ∧ kAt 16 = 0xe49b69c1 ∧ kAt 62 = 0xbef9a3f7 ∧ kAt 63 = 0xc67178f2 ∧
      ivTable[7] = 0x5be0cd19 := by decide

/-- The block of bytes `first`, `first + 1`, .. (section 3). -/
def countingBlock (first : Nat) : Vector Byte 64 := tabulate 64 fun j => BitVec.ofNat 8 (first + j)

/-- Section 3: the compression from IV and the one that does not start from IV, by the machine. -/
theorem test_compress_counting_blocks :
    let once := compress { active 0 0 0 with buf := countingBlock 0 }
    once.h = #v[0xfc99a2df, 0x88f42a7a, 0x7bb9d180, 0x33cdc6a2, 0x0256755f, 0x9d5b9a50, 0x44a9cc31, 0x5abe84a7] ∧
    (compress { once with buf := countingBlock 0x40 }).h =
      #v[0x593253ad, 0xfb4cc018, 0xbe611395, 0x485e47c1, 0x5a5b271d, 0xfb8da14f, 0xe8f77fb4, 0xd05eacbc] := by
  decide +kernel

/-- Section 3: the schedule of the padded block of "abc". -/
theorem test_schedule_abc :
    let c := buildSchedule (onlyPadBlock (countingBlock 0x61) 3 0x18) Scratch.zero
    scheduleWord c.w 0 = 0x61626380 ∧ scheduleWord c.w 15 = 0x18 ∧ scheduleWord c.w 17 = 0x000f0000 ∧
      scheduleWord c.w 31 = 0xd3b7973b ∧ scheduleWord c.w 63 = 0x12b1edeb := by decide +kernel

/-! ## The three commands -/

/-- Section 4, 4.1. -/
theorem test_init_from_reset :
    nextHas (exec .init State.reset) (fun t => decide (t.phase = .active ∧ t.h = ivTable ∧ t.buflen = 0 ∧ t.bitlen = 0)) =
      true := by decide

/-- Section 7, 7.5, and section 4, 4.8: INIT in DONE clears LEN_OVF and invalidates the digest. -/
theorem test_init_clears_overflow_in_done :
    nextHas (exec .init { done with lenOvf := true }) (fun t => !t.lenOvf && decide (t.phase = .active) && !digestValid t) =
      true := by decide

/-- Section 4, 4.4: the 64th 'a'. -/
theorem test_update_closes_block :
    nextHas (exec (.update 0x61) (active 63 0x61 0)) (fun t => decide (t.buflen = 0 ∧ t.bitlen = 0x200 ∧ t.lenOvf = false ∧
      readByte t.buf 63 = 0x61 ∧
      t.h = #v[0xdf5bb81c, 0xe81e0626, 0xfb45a894, 0x4fd40f31, 0xb25e6816, 0xd6d499c1, 0xab904929, 0x00635e66])) = true := by
  decide +kernel

/-- Section 7, 7.2: the counter wraps, the flag is set, the CORE goes on. -/
theorem test_update_wraps_length :
    nextHas (exec (.update 0) (active 63 0 0xfffffffffffffe00)) (fun t => decide (t.buflen = 0 ∧ t.bitlen = 0 ∧
      t.lenOvf = true ∧ t.phase = .active ∧
      t.h = #v[0xda5698be, 0x17b9b469, 0x62335799, 0x779fbeca, 0x8ce5d491, 0xc0d26243, 0xbafef9ea, 0x1837a9d8])) = true := by
  decide +kernel

/-- Section 5: HASH "abc", one block, and the state FINAL leaves behind. -/
theorem test_final_abc :
    nextHas (execAll (hashCommands [0x61, 0x62, 0x63]) State.reset) (fun t => decide (t.phase = .done ∧ t.buflen = 3 ∧
      t.bitlen = 0 ∧ t.total = 0x18 ∧ readByte t.buf 3 = 0x80 ∧ readByte t.buf 63 = 0x18 ∧
      packDigest t.digest = 0xba7816bf8f01cfea414140de5dae2223b00361a396177a9cb410ff61f20015ad)) = true := by
  decide +kernel

/-- Section 5: 56 x 'a', two blocks. -/
theorem test_final_two_blocks :
    nextHas (exec .final (active 56 0x61 0)) (fun t => decide (t.phase = .done ∧ t.buflen = 56 ∧ t.total = 0x1c0 ∧
      readByte t.buf 0 = 0 ∧ readByte t.buf 62 = 0x01 ∧ readByte t.buf 63 = 0xc0 ∧
      packDigest t.digest = 0xb35439a4ac6f0948b6d6f9e3c6af0f5f590ce20f1bde7090ef7970686ec6738a)) = true := by
  decide +kernel

/-! ## Faults (95_test_vectors.md section 6) -/

/-- 6.1, 6.2: no context. -/
theorem test_fault_no_context :
    nextHas (exec (.update 0) State.reset) (fun t => decide (t.phase = .fault ∧ t.fcause = .updateNoContext)) = true ∧
    nextHas (exec .final State.reset) (fun t => decide (t.phase = .fault ∧ t.fcause = .finalNoContext)) = true := by decide

/-- 6.8, 6.9: a reserved word in ACTIVE changes two registers; in DONE it gives cause 1, not 3. -/
theorem test_fault_reserved_word :
    nextHas (dispatchWord 0x1ff (active 1 0x61 0)) (fun t =>
      decide (t = { active 1 0x61 0 with phase := .fault, fcause := .illegalCmd })) = true ∧
    nextHas (dispatchWord 0x301 done) (fun t => decide (t.phase = .fault ∧ t.fcause = .illegalCmd)) = true := by decide

/-- 6.10, 6.11: what follows the first fault is discarded, INIT too. -/
theorem test_fault_keeps_first_cause :
    nextHas (execAll [.update 0, .init, .update 0x61, .final] State.reset) (fun t =>
      decide (t.phase = .fault ∧ t.fcause = .updateNoContext ∧ t.buflen = 0)) = true ∧
    nextHas (dispatchWord 0x000 faulty) (fun t => decide (t = faulty)) = true := by decide

/-! ## Steps -/

/-- 30_encoding.md R91: an accepted word is executed at the edge and is in flight after it. -/
theorem test_step_accepts_init :
    nextHas (step (presenting 0x100 State.reset)) (fun t => decide (t.phase = .active ∧ t.inputs = []) && t.busy) = true := by
  decide

/-- 30_encoding.md R91: with cmd_ready = 0 the word on the channel is not taken. -/
theorem test_step_busy_takes_nothing :
    nextHas (step (inFlight 1 (active 5 0 0))) (fun t => decide (t.phase = .active ∧ t.inputs = []) && !t.busy) = true := by
  decide

/-- 70_reset_and_hazards.md R221: rst is asserted when its pin is at the active level, whichever that is. -/
theorem test_reset_pin_level :
    (PortSample.fromPins ⟨true, false, 1⟩ true true 5 false 0).rst = some 5 ∧
    (PortSample.fromPins ⟨true, false, 1⟩ true false 5 false 0).rst = none ∧
    (PortSample.fromPins ⟨false, true, 1⟩ true false 5 false 0).rst = some 5 := by decide

/-- 70_reset_and_hazards.md R221: at an edge with rst asserted too short nothing is accepted and the CORE is not ready. -/
theorem test_hold_edge :
    (holdEdge done).busy = true ∧ (holdEdge (inFlight 1 done)).left = 1 ∧ (holdEdge (inFlight 5 done)).left = 4 := by
  decide

/-- 70_reset_and_hazards.md R230: a host may not change a waiting command between two edges, nor at an edge with rst
asserted that does not reset, nor at one with BUSY = 1; at the accepting edge it may. -/
theorem test_host_holds :
    hostHolds { done with inputs := [⟨false, none, true, 0x100⟩, PortSample.present 0x300] } = false ∧
    (∀ width, let s := { done with inputs := [⟨true, some width, true, 0x100⟩, PortSample.present 0x300] }
      resetTakes s = false → hostHolds s = false) ∧
    hostHolds { inFlight 5 done with inputs := [PortSample.present 0x100, PortSample.idle] } = false ∧
    hostHolds { done with inputs := [PortSample.present 0x100, PortSample.present 0x300] } = true := by
  refine ⟨by decide, ?_, by decide, by decide⟩
  intro width s h
  have hw : commandWaits s = true := by rw [commandWaits, h]; rfl
  rw [hostHolds_of_waits hw]
  rfl

/-- withFetchWord: the very next step runs the instruction. -/
theorem test_step_runs_table_word :
    nextHas (step (State.reset.withFetchWord 10 0x300)) (fun t => decide (t.fcause = .finalNoContext)) = true := by decide

/-! ## Witnesses: word functions and memories -/

theorem witness_ChChoosesBitwise : 0 < 32 ∧ 31 < 32 := by decide
theorem witness_MajTakesMajority : 0 < 32 ∧ 31 < 32 := by decide
theorem witness_BigSigmasRotate : 0 < 32 ∧ 31 < 32 := by decide
theorem witness_SmallSigmasRotateAndShift : 0 < 32 ∧ 31 < 32 ∧ 28 + 3 < 32 ∧ ¬ 29 + 3 < 32 := by decide
theorem witness_RotateIsBijectiveBitMove : (0 < 1 ∧ 1 < 32) ∧ (0 < 31 ∧ 31 < 32) := by decide

/-- The length field, the last byte and the last word of the digest; the bytes on both sides of the length field. -/
theorem witness_MemWritePlacesBytes :
    (56 + 8 ≤ 64 ∧ 7 < 8 ∧ (55 < 56 ∨ 56 + 8 ≤ 55) ∧ (64 < 56 ∨ 56 + 8 ≤ 64)) ∧ 63 + 1 ≤ 64 ∧ 28 + 4 ≤ 32 := by decide
theorem witness_MemReadAfterWrite : 56 + 8 ≤ 64 ∧ 63 + 1 ≤ 64 ∧ 28 + 4 ≤ 32 := by decide

/-! ## Witnesses: COMPRESS -/

theorem witness_ScheduleFollowsRecurrence : (0 < 16 ∧ 15 < 16) ∧ (16 ≤ 16 ∧ 16 < 64) ∧ 16 ≤ 63 ∧ 63 < 64 := by decide

/-- Scratch before round 0 of the block of "abc". -/
def beforeRound0 : Scratch :=
  { Scratch.zero with vars := varsOf ivTable, w := Vector.replicate 64 0x61626380 }

theorem witness_RoundUpdatesVariables :
    (0 < 64 ∧ 63 < 64) ∧ beforeRound0.vars = varsOf ivTable ∧ scheduleWord beforeRound0.w 0 = 0x61626380 := by decide

/-! ## Witnesses: the commands -/

theorem witness_InitCreatesFreshContext :
    State.reset.phase ≠ .fault ∧ (active 5 1 0x200).phase ≠ .fault ∧ done.phase ≠ .fault ∧ faulty.phase = .fault := by decide

theorem witness_UpdateStoresAtBuflen :
    ((active 0 0 0).phase = .active ∧ (active 0 0 0).buflen.toNat < 63 ∧ 63 ≠ storeOffset (active 0 0 0)) ∧
    ((active 62 0 0).phase = .active ∧ (active 62 0 0).buflen.toNat < 63) ∧ (active 63 0 0).phase = .active := by decide

theorem witness_UpdateCompressesFullBlock :
    (active 63 7 0).phase = .active ∧ (active 63 7 0).buflen = 63 ∧ 62 ≠ storeOffset (active 63 7 0) := by decide

/-- One block before the wrap, and the wrap. -/
theorem witness_LengthCounterWrapsIntoFlag :
    ((active 63 0 0xfffffffffffffc00).phase = .active ∧ (active 63 0 0xfffffffffffffc00).buflen = 63 ∧
      (active 63 0 0xfffffffffffffc00).bitlen.toNat % 512 = 0) ∧
    ((active 63 0 0xfffffffffffffe00).phase = .active ∧ (active 63 0 0xfffffffffffffe00).buflen = 63 ∧
      (active 63 0 0xfffffffffffffe00).bitlen.toNat % 512 = 0 ∧
      (active 63 0 0xfffffffffffffe00).bitlen.toNat = 2 ^ 64 - 512) := by decide

/-- n = 0, 55 in the one-block case, 56, 63 in the two-block case. -/
theorem witness_FinalPadsCompressesDelivers :
    ((active 0 1 0).phase = .active ∧ (active 0 1 0).buflen.toNat ≤ 55) ∧
    ((active 55 1 0).phase = .active ∧ (active 55 1 0).buflen.toNat ≤ 55 ∧ 54 < (active 55 1 0).buflen.toNat) ∧
    ((active 56 1 0).phase = .active ∧ 56 ≤ (active 56 1 0).buflen.toNat) ∧
    ((active 63 1 0).phase = .active ∧ 56 ≤ (active 63 1 0).buflen.toNat) := by decide

/-- The longest legal message among them. -/
theorem witness_FinalLatchesTotalLength :
    (active 63 0xaa 0xfffffffffffffe00).phase = .active ∧ (active 63 0xaa 0xfffffffffffffe00).bitlen.toNat % 512 = 0 := by
  decide

theorem witness_FinalStoresLengthBigEndian : (active 3 0x61 0).phase = .active ∧ 0 < 8 ∧ 7 < 8 := by decide
theorem witness_FinalSerialisesBigEndian :
    (active 3 0x61 0).phase = .active ∧ (0 < 8 ∧ 0 < 4) ∧ 7 < 8 ∧ 3 < 4 := by decide

/-! ## Witnesses: decoding, dispatch and faults -/

theorem witness_DecodeEncodeAgree : Instr.init.wf = true ∧ (Instr.update 0xFF).wf = true ∧ Instr.final.wf = true := by decide

/-- A word of each class with a state of each phase its clause names. -/
theorem witness_DispatchFollowsProcedure :
    faulty.phase = .fault ∧ (done.phase ≠ .fault ∧ (0x100 : CmdWord) &&& 0x3FF = 0x100) ∧
    ((active 0 0 0).phase ≠ .fault ∧ (0x200 : CmdWord) &&& 0x300 = 0x200 ∧ (0x2FF : CmdWord) &&& 0x300 = 0x200) ∧
    (State.reset.phase = .idle ∧ (active 0 0 0).phase = .active ∧ done.phase = .done) ∧
    ((0x300 : CmdWord) &&& 0x3FF = 0x300) ∧
    ((0x3FF : CmdWord) &&& 0x3FF ≠ 0x100 ∧ (0x3FF : CmdWord) &&& 0x300 ≠ 0x200 ∧ (0x3FF : CmdWord) &&& 0x3FF ≠ 0x300) := by
  decide

theorem witness_CommandsRaiseTheirCauses :
    done.phase = .done ∧ State.reset.phase = .idle ∧
    (State.reset.phase ≠ .fault ∧ decode 0x0FF = .reserved .opZero) ∧
    ((active 0 0 0).phase ≠ .fault ∧ decode 0x1FF = .reserved .initData) ∧
    (done.phase ≠ .fault ∧ decode 0x301 = .reserved .finalData) := by decide

theorem witness_FaultEntryWritesTwoRegisters :
    dispatchWord 0x000 (active 5 0 0) = .next { active 5 0 0 with phase := .fault, fcause := .illegalCmd } ∧
    (active 5 0 0).phase ≠ .fault ∧ (outputs { active 5 0 0 with phase := .fault, fcause := .illegalCmd }).cmdReady = true :=
  ⟨rfl, by decide, by decide⟩

theorem witness_FaultDiscardsEveryWord : faulty.phase = .fault := by decide

/-- An INIT presented in FAULT, and a reset in FAULT. -/
theorem witness_OnlyResetLeavesFault :
    (∃ t, step (presenting 0x100 faulty) = .next t ∧ (presenting 0x100 faulty).phase = .fault ∧
      resetTakes (presenting 0x100 faulty) = false) ∧
    (∃ t, step (resetting faulty) = .next t ∧ (resetting faulty).phase = .fault ∧ resetTakes (resetting faulty) = true) :=
  ⟨⟨_, step_eq _, by decide, rfl⟩, ⟨_, step_eq _, by decide, resetting_takes _⟩⟩

/-! ## Witnesses: phases, registers and ports -/

/-- Each class of word accepted in each phase its clauses name: IDLE, ACTIVE and DONE for UPDATE and for FINAL. -/
theorem witness_PhaseFollowsTable :
    (∃ t, step (resetting faulty) = .next t ∧ resetTakes (resetting faulty) = true) ∧
    (resetTakes done = false ∧ accepts done = false) ∧
    (accepts (presenting 0x100 faulty) = true ∧ (presenting 0x100 faulty).phase = .fault) ∧
    (accepts (presenting 0x101 done) = true ∧ (presenting 0x101 done).phase ≠ .fault ∧
      decode (nextSample (presenting 0x101 done)).cmd = .reserved .initData) ∧
    (accepts (presenting 0x100 done) = true ∧ (presenting 0x100 done).phase ≠ .fault ∧
      decode (nextSample (presenting 0x100 done)).cmd = .command .init) ∧
    (∀ s ∈ [State.reset, active 63 0 0, done], accepts (presenting 0x2FF s) = true ∧ (presenting 0x2FF s).phase ≠ .fault ∧
      decode (nextSample (presenting 0x2FF s)).cmd = .command (.update 0xFF)) ∧
    (∀ s ∈ [State.reset, active 63 0 0, done], accepts (presenting 0x300 s) = true ∧ (presenting 0x300 s).phase ≠ .fault ∧
      decode (nextSample (presenting 0x300 s)).cmd = .command .final) ∧
    (State.reset.phase = .idle ∧ (active 63 0 0).phase = .active ∧ done.phase = .done) :=
  ⟨⟨_, step_eq _, resetting_takes _⟩, by decide⟩

/-- The wrap with LEN_OVF = 0, and an INIT with LEN_OVF = 1. -/
theorem witness_LenOvfIsSticky :
    (∃ t, step (presenting 0x200 (active 63 0 0xfffffffffffffe00)) = .next t ∧ t.lenOvf = true ∧
      resetTakes (presenting 0x200 (active 63 0 0xfffffffffffffe00)) = false ∧
      accepts (presenting 0x200 (active 63 0 0xfffffffffffffe00)) = true ∧
      (active 63 0 0xfffffffffffffe00).lenOvf = false ∧ 2 ^ 64 ≤ (active 63 0 0xfffffffffffffe00).bitlen.toNat + 512 ∧
      decode (nextSample (presenting 0x200 (active 63 0 0xfffffffffffffe00))).cmd = .command (.update 0)) ∧
    (∃ t, step (presenting 0x100 { done with lenOvf := true }) = .next t ∧ t.lenOvf = false ∧
      resetTakes (presenting 0x100 { done with lenOvf := true }) = false ∧
      accepts (presenting 0x100 { done with lenOvf := true }) = true ∧
      decode (nextSample (presenting 0x100 { done with lenOvf := true })).cmd = .command .init) ∧
    resetTakes (resetting done) = true :=
  ⟨⟨_, step_eq _, by decide +kernel, rfl, by decide, by decide, by decide, by decide⟩,
    ⟨_, step_eq _, by decide, rfl, by decide, by decide⟩, resetting_takes _⟩

/-- An INIT that changes H, an UPDATE at a block boundary that changes H and BITLEN. -/
theorem witness_HashStateAndCounterWriters :
    (∃ t, step (presenting 0x100 State.reset) = .next t ∧ resetTakes (presenting 0x100 State.reset) = false ∧
      t.h ≠ (presenting 0x100 State.reset).h) ∧
    (∃ t, step (presenting 0x261 (active 63 0x61 0)) = .next t ∧
      resetTakes (presenting 0x261 (active 63 0x61 0)) = false ∧
      t.h ≠ (presenting 0x261 (active 63 0x61 0)).h ∧ t.bitlen ≠ (presenting 0x261 (active 63 0x61 0)).bitlen) :=
  ⟨⟨_, step_eq _, rfl, by decide⟩, ⟨_, step_eq _, rfl, by decide +kernel, by decide +kernel⟩⟩

/-- A FINAL that changes DIGEST, and an idle edge in DONE. -/
theorem witness_DigestIsImmutableOnceProduced :
    (∃ t, step (presenting 0x300 (active 0 0 0)) = .next t ∧ resetTakes (presenting 0x300 (active 0 0 0)) = false ∧
      t.digest ≠ (presenting 0x300 (active 0 0 0)).digest) ∧
    (∃ t, step done = .next t ∧ resetTakes done = false ∧ done.phase = .done ∧ t.phase = .done ∧
      (outputs done).digestValid = true ∧ (outputs t).digestValid = true) :=
  ⟨⟨_, step_eq _, rfl, by decide +kernel⟩, ⟨_, step_eq _, rfl, by decide, by decide, by decide, by decide⟩⟩

theorem witness_StatusOutputsFollowState :
    (outputs faulty).cmdReady = true ∧ (outputs (inFlight 1 done)).cmdReady = false := by decide

theorem witness_StatusPortsSettleWhenReady : (outputs done).cmdReady = true := by decide

theorem witness_DigestPortHasByteZeroOnTop :
    (0 < 32 ∧ 31 < 32) ∧ (0 < 8 ∧ 7 < 8) ∧ (outputs done).digestValid = true := by decide

/-- FAULT meets the invariant and shows fault = 1. -/
theorem witness_FaultPortStaysUntilReset :
    Inv faulty ∧ (∃ t, step (presenting 0x100 faulty) = .next t) ∧ resetTakes (presenting 0x100 faulty) = false ∧
      Inv (presenting 0x100 faulty) ∧ (outputs (presenting 0x100 faulty)).fault = true :=
  ⟨⟨by decide, by decide, by decide, by decide⟩, ⟨_, step_eq _⟩, by decide,
    ⟨by decide, by decide, by decide, by decide⟩, by decide⟩

/-! ## Witnesses: the command channel, reset and the invariant -/

theorem witness_StepRunsDecodedCommand :
    (accepts (presenting 0x261 (active 5 0 0)) = true ∧
      decode (nextSample (presenting 0x261 (active 5 0 0))).cmd = .command (.update 0x61)) ∧
    decodeTableWord 10 0x100 = some .init ∧ decodeTableWord 16 0x2FF = some (.update 0xFF) ∧
    decodeTableWord 10 0x300 = some .final := by decide

/-- An idle edge; a wait of more than one cycle; the last cycle of a wait; rst asserted at an edge; an instant between
two edges. -/
theorem witness_EdgesWithoutAcceptance :
    ((nextSample done).clk = true ∧ (nextSample done).rst = none ∧ done.busy = false ∧
      (nextSample done).cmdValid = false) ∧
    ((nextSample (inFlight 2 done)).clk = true ∧ (nextSample (inFlight 2 done)).rst = none ∧
      (inFlight 2 done).busy = true ∧ ¬ (inFlight 2 done).left ≤ 1) ∧
    ((inFlight 1 done).busy = true ∧ (inFlight 1 done).left ≤ 1) ∧
    ((nextSample (resetting done)).clk = true ∧ (nextSample (resetting done)).rst ≠ none) ∧
    ((nextSample { done with inputs := [⟨false, none, true, 0x100⟩] }).clk = false ∧
      (nextSample { done with inputs := [⟨false, none, true, 0x100⟩] }).rst = none) :=
  ⟨by decide, by decide, by decide, ⟨rfl, by simp [resetting, nextSample]⟩, by decide⟩

/-- Three cycles left, a word waiting; and a CORE that is ready already. -/
theorem witness_EveryCommandCompletes :
    (Inv (inFlight 3 done) ∧ quietFor (inFlight 3 done).left (inFlight 3 done)) ∧
    Inv done ∧ quietFor done.left done :=
  ⟨⟨⟨by decide, by decide, by decide, by decide⟩, by unfold quietFor; decide⟩,
    ⟨by decide, by decide, by decide, by decide⟩, by unfold quietFor; decide⟩

theorem witness_AcceptedWordTakesItsLatency :
    accepts (presenting 0x3FF done) = true ∧ faulty.phase = .fault ∧
    ((active 63 0 0).phase = .active ∧ (active 63 0 0).buflen = 63) ∧
    ((active 55 0 0).phase = .active ∧ (active 55 0 0).buflen.toNat ≤ 55) ∧
    ((active 56 0 0).phase = .active ∧ ¬ (active 56 0 0).buflen.toNat ≤ 55) := by decide

/-- Reset in FAULT, and reset while a command is in flight. -/
theorem witness_ResetEdgeAbandonsEverything :
    resetTakes (resetting faulty) = true ∧ resetTakes (resetting (inFlight 3 (active 63 0 0))) = true ∧
      (resetting (inFlight 3 (active 63 0 0))).busy = true :=
  ⟨resetting_takes _, resetting_takes _, rfl⟩

/-- No assertion; one of the minimum width at an edge and between two edges; the wait after a reset. -/
theorem witness_ResetEndsWithinBound :
    (nextSample done).rst = none ∧
    ((nextSample (resetting done)).rst = some Config.resetStyle.minWidth ∧ (nextSample (resetting done)).clk = true) ∧
    ((nextSample (resettingBetween done)).rst = some Config.resetStyle.minWidth ∧
      (nextSample (resettingBetween done)).clk = false ∧ Config.resetStyle.minWidth ≤ Config.resetStyle.minWidth) ∧
    resetTakes (resetting done) = true ∧ ∃ t, step (resetting done) = .next t ∧ quietFor Config.tReset t := by
  refine ⟨rfl, ⟨rfl, rfl⟩, ⟨rfl, rfl, Nat.le_refl _⟩, resetting_takes _, resetEvent (takeSample (resetting done)), ?_, ?_⟩
  · rw [step_eq, afterStep, if_pos (resetting_takes _)]
  · intro p hp
    simp only [show (resetEvent (takeSample (resetting done))).inputs = [] from rfl, List.take_nil, List.not_mem_nil] at hp

/-- A state with a command in flight that entered FAULT, and a step from it. -/
theorem witness_StepKeepsInvariant :
    Inv { inFlight 1 faulty with before := statusOf done } ∧
      ∃ t, step { inFlight 1 faulty with before := statusOf done } = .next t :=
  ⟨⟨by decide, by decide, by decide, by decide⟩, ⟨_, step_eq _⟩⟩

/-! ## Witnesses: messages -/

/-- The empty message, one that ends inside a block, one that fills a block. -/
theorem witness_StateAfterUpdates :
    (messageFits [] ∧ done.phase ≠ .fault) ∧ (messageFits (List.replicate 65 0x61) ∧ 0 < (List.replicate 65 0x61).length % 64) ∧
    messageFits (List.replicate 64 0x61) := by
  unfold messageFits
  simp only [List.length_replicate]
  decide

theorem witness_LengthCountsEveryByte :
    done.phase ≠ .fault ∧ nextHas (execAll (.init :: updatesOf [0x61]) done) (fun t => !t.lenOvf) = true := by decide

/-- The longest message that fits and the shortest that does not. -/
theorem witness_HashDeliversSha256 :
    done.phase ≠ .fault ∧ messageFits (List.replicate (2 ^ 61 - 1) 0x61) ∧
      ¬ messageFits (List.replicate (2 ^ 61) 0x61) := by
  refine ⟨by decide, ?_, ?_⟩ <;> unfold messageFits <;> rw [List.length_replicate] <;> norm_num

theorem witness_HashForgetsHistory : State.reset.phase ≠ .fault ∧ (active 17 0x78 0x400).phase ≠ .fault := by decide

theorem witness_PaddingIsWholeAndInjective :
    messageFits [0x61] ∧ messageFits [0x61] ∧ padMessage [0x61] = padMessage [0x61] := by simp [messageFits]

theorem witness_ChunkingDoesNotMatter : execAll [.init, .update 0x61] State.reset =
    .next { State.reset with phase := .active, h := ivTable, buflen := 1, buf := Vector.set State.reset.buf 0 0x61 } := by
  rfl

end Sys2Proof.Tests
end

namespace Sys2Proof.Machine

/-! ### Rotation and shift, bit by bit -/

/-- ROTR is the library's rotation (00_scope.md R6), for the amounts the rules use. -/
theorem rotr_eq_rotateRight (x : Word) {n : Nat} (hn : n < 32) : rotr x n = x.rotateRight n := by
  simp only [rotr, BitVec.rotateRight, BitVec.rotateRightAux, Nat.mod_eq_of_lt hn]

/-- Bit `i` of a rotated word is bit `i + n` of the word, counted round (00_scope.md R6). -/
theorem getLsbD_rotr (x : Word) {n i : Nat} (hn : n < 32) (hi : i < 32) :
    (rotr x n).getLsbD i = x.getLsbD ((i + n) % 32) := by
  rw [rotr_eq_rotateRight x hn, BitVec.getLsbD_rotateRight, Nat.mod_eq_of_lt hn]
  by_cases h : i < 32 - n
  · rw [show (i + n) % 32 = n + i by omega]; simp [h]
  · rw [show (i + n) % 32 = i - (32 - n) by omega]; simp [h, hi]

/-- Bit `i` of a shifted word is bit `i + n` of the word, and 0 where there is none (00_scope.md R6). -/
theorem getLsbD_shr (x : Word) (n i : Nat) :
    (shr x n).getLsbD i = (decide (i + n < 32) && x.getLsbD (i + n)) := by
  rw [shr, BitVec.getLsbD_ushiftRight, Nat.add_comm n i]
  by_cases h : i + n < 32
  · simp [h]
  · simp [h, BitVec.getLsbD_of_ge x (i + n) (by omega)]

/-- Rotating on to a full turn gives the word back: ROTR by `32 - n` undoes ROTR by `n`. -/
theorem rotr_rotr_of_add_eq (x : Word) {n k : Nat} (hn : n < 32) (hk : k < 32) (h : n + k = 32) :
    rotr (rotr x n) k = x := by
  apply BitVec.eq_of_getLsbD_eq
  intro i hi
  rw [getLsbD_rotr _ hk hi, getLsbD_rotr _ hn (Nat.mod_lt _ (by decide))]
  congr 1
  omega

theorem rotr_bijective {n : Nat} (h0 : 0 < n) (hn : n < 32) : Function.Bijective fun x : Word => rotr x n :=
  Function.bijective_iff_has_inverse.mpr ⟨fun x => rotr x (32 - n),
    fun x => rotr_rotr_of_add_eq x hn (by omega) (by omega),
    fun x => rotr_rotr_of_add_eq x (by omega) hn (by omega)⟩

/-- Settles O5: bit by bit, and by the opposite rotation as the inverse. -/
theorem rotateIsBijectiveBitMove : Obligations.RotateIsBijectiveBitMove := by
  intro n h0 hn
  exact ⟨fun x i hi => ⟨getLsbD_rotr x hn hi, getLsbD_shr x n i⟩, rotr_bijective h0 hn⟩

end Sys2Proof.Machine

namespace Sys2Proof.Machine

/-! ### COMPRESS computes cmp -/

/-- Concatenation with a byte as numbers: a digit in base 256 (20_memory.md R62). -/
theorem toNat_append_byte {n : Nat} (x : BitVec n) (b : Byte) : (x ++ b).toNat = x.toNat * 256 + b.toNat := by
  rw [BitVec.toNat_append, ← Nat.shiftLeft_add_eq_or_of_lt b.isLt, Nat.shiftLeft_eq]

/-- A four-byte MemRead is BE32 of the four bytes (20_memory.md R62, R66). -/
theorem memRead_four {size : Nat} (m : Vector Byte size) (a : Nat) :
    memRead m a 4 = be32 (readByte m a) (readByte m (a + 1)) (readByte m (a + 2)) (readByte m (a + 3)) := by
  have hread : memRead m a 4 = BitVec.ofNat 32
      ((((0 * 256 + (readByte m a).toNat) * 256 + (readByte m (a + 1)).toNat) * 256 +
        (readByte m (a + 2)).toNat) * 256 + (readByte m (a + 3)).toNat) := rfl
  apply BitVec.eq_of_toNat_eq
  rw [hread, BitVec.toNat_ofNat, be32, toNat_append_byte, toNat_append_byte, toNat_append_byte]
  omega

/-- Writing element `t` of an array lengthens the known first `t` elements by one. -/
theorem take_setIfInBounds_toList {α : Type} {n t : Nat} (w : Vector α n) (v : α) (h : t < n) :
    (w.setIfInBounds t v).toList.take (t + 1) = w.toList.take t ++ [v] := by
  have hl : t < (w.setIfInBounds t v).toList.length := by simpa using h
  rw [List.take_succ_eq_append_getElem hl]
  simp [List.take_set, List.set_eq_of_length_le]

@[simp] theorem length_blockWords (block : Vector Byte 64) : (blockWords block).length = 16 := by
  simp [blockWords]

@[simp] theorem length_iterate_extendSchedule (n : Nat) (ws : List Word) :
    (extendSchedule^[n] ws).length = ws.length + n := by
  induction n with
  | zero => rfl
  | succ n ih => rw [Function.iterate_succ_apply', extendSchedule, List.length_append, ih]; rfl

@[simp] theorem length_scheduleOf (block : Vector Byte 64) : (scheduleOf block).length = 64 := by
  rw [scheduleOf, length_iterate_extendSchedule, length_blockWords]

/-- After LOAD the first 16 words of W are the words of the block (R117). -/
theorem load_schedule (block : Vector Byte 64) (c : Scratch) :
    (forLoop 0 15 (loadWord block) c).w.toList.take 16 = blockWords block := by
  refine (forLoop_induct (fun t c => c.w.toList.take t = (blockWords block).take t) 0 15 _ c (by decide) rfl ?_).trans
    (List.take_of_length_le (by simp))
  intro t c _ ht hc
  have hlen : t < (blockWords block).length := by simp; omega
  rw [List.take_succ_eq_append_getElem hlen, ← hc, loadWord, take_setIfInBounds_toList _ _ (by omega), memRead_four]
  simp [blockWords, wordOffset]

/-- EXPAND for word `t` extends the first `t` words of W by the recurrence (R118). -/
theorem take_expandWord (t : Nat) (c : Scratch) (h16 : 16 ≤ t) (h64 : t < 64) :
    (expandWord t c).w.toList.take (t + 1) = extendSchedule (c.w.toList.take t) := by
  have back : ∀ k, 0 < k → k ≤ 16 → (c.w.toList.take t).getD (t - k) 0 = scheduleWord c.w (t - k) := by
    intro k hk hk'
    have h : t - k < t := by omega
    simp [scheduleWord, List.getD_eq_getElem?_getD, h]
  have hlen : (c.w.toList.take t).length = t := by simp; omega
  rw [expandWord, take_setIfInBounds_toList _ _ h64, extendSchedule, hlen,
    back 2 (by decide) (by decide), back 7 (by decide) (by decide), back 15 (by decide) (by decide),
    back 16 (by decide) (by decide)]

/-- After LOAD and EXPAND W is the schedule of the block, whatever it held before (R117, R118). -/
theorem buildSchedule_w (block : Vector Byte 64) (c : Scratch) :
    (buildSchedule block c).w.toList = scheduleOf block := by
  have h := forLoop_induct (fun t c => c.w.toList.take t = extendSchedule^[t - 16] (blockWords block)) 16 63 expandWord
    (forLoop 0 15 (loadWord block) c) (by decide) (load_schedule block c) (by
      intro t c h16 h63 hc
      rw [take_expandWord t c h16 (by omega), hc, show t + 1 - 16 = t - 16 + 1 by omega,
        Function.iterate_succ_apply'])
  rwa [List.take_of_length_le (by simp)] at h

@[simp] theorem length_kTable : kTable.length = 64 := by decide

/-- The rounds are the fold of the round map over the constants and W, which they leave as it is (R121). -/
theorem runRounds_vars (h : Vector Word 8) (c : Scratch) :
    (runRounds h c).vars = (kTable.zip c.w.toList).foldl (fun v p => roundVars p.1 p.2 v) (varsOf h) := by
  have hrounds := forLoop_induct
    (fun t d => d.w = c.w ∧
      d.vars = ((kTable.zip c.w.toList).take t).foldl (fun v p => roundVars p.1 p.2 v) (varsOf h))
    0 63 roundStep (initVars h c) (by decide) ⟨rfl, rfl⟩ (by
      rintro t d - h63 ⟨hw, hv⟩
      refine ⟨hw, ?_⟩
      have hz : t < (kTable.zip c.w.toList).length := by simp; omega
      rw [List.take_succ_eq_append_getElem hz, List.foldl_append, ← hv]
      have hwt : t < 64 := by omega
      simp [roundStep, roundVars, kAt, scheduleWord, hw, hwt, List.getD_eq_getElem?_getD])
  have hall := hrounds.2
  rwa [List.take_of_length_le (by simp)] at hall

/-- COMPRESS gives H the value cmp of H and BUF, whatever the scratch held (R128). -/
theorem compress_h_eq_cmpBlock (s : State) : (compress s).h = cmpBlock s.h s.buf := by
  rw [compress_h, cmpBlock, compressScratch, runRounds_vars, buildSchedule_w]

end Sys2Proof.Machine

namespace Sys2Proof.Machine

/-! ### The blocks of a byte string -/

/-- Block `j` of a byte string (41_stream.md R157). -/
def blockAt (bytes : List Byte) (j : Nat) : Vector Byte 64 := tabulate 64 fun i => bytes.getD (64 * j + i) 0

theorem blocksOf_eq_map_blockAt (bytes : List Byte) :
    blocksOf bytes = (List.range (bytes.length / 64)).map (blockAt bytes) := rfl

/-- Bytes that follow leave a whole block as it is. -/
theorem blockAt_append (xs ys : List Byte) {j : Nat} (h : j < xs.length / 64) :
    blockAt (xs ++ ys) j = blockAt xs j := by
  apply memory_ext
  intro i hi
  simp only [blockAt, readByte_tabulate, hi, if_true]
  exact List.getD_append _ _ _ _ (by omega)

/-- The blocks of a longer byte string: those there were, and the `k` that are new. -/
theorem blocksOf_append (xs ys : List Byte) (k : Nat) (h : (xs ++ ys).length / 64 = xs.length / 64 + k) :
    blocksOf (xs ++ ys) = blocksOf xs ++ (List.range k).map fun i => blockAt (xs ++ ys) (xs.length / 64 + i) := by
  rw [blocksOf_eq_map_blockAt, blocksOf_eq_map_blockAt, h, List.range_add, List.map_append, List.map_map]
  congr 1
  apply List.map_congr_left
  intro j hj
  exact blockAt_append xs ys (List.mem_range.mp hj)

/-! ### The message so far, in the registers -/

/-- The context registers hold the message `m`, of any length (41_stream.md R157; 10_state.md R31, R32). -/
structure Absorbed (m : List Byte) (s : State) : Prop where
  hash : s.h = (blocksOf m).foldl cmpBlock ivTable
  count : s.buflen.toNat = m.length % 64
  tail : ∀ i, i < m.length % 64 → readByte s.buf i = m.getD (64 * (m.length / 64) + i) 0
  length : s.bitlen.toNat = 512 * (m.length / 64) % 2 ^ 64
  overflow : s.lenOvf = decide (2 ^ 61 ≤ m.length)
  phase : s.phase = .active

theorem absorbed_createContext (s : State) : Absorbed [] (createContext s) where
  hash := rfl
  count := rfl
  tail := fun i hi => absurd hi (Nat.not_lt_zero i)
  length := rfl
  overflow := by simp
  phase := rfl

theorem toNat_blockBits : blockBits.toNat = 512 := rfl

theorem blockCompletes_iff (s : State) : blockCompletes s = true ↔ s.buflen.toNat = 63 := by
  simp [blockCompletes, ← BitVec.toNat_inj]

/-- What the buffer reads after UPDATE's store (R153). -/
theorem readByte_storeMessageByte (d : Byte) (s : State) (a : Nat) :
    readByte (storeMessageByte d s).buf a = if s.buflen.toNat = a then d else readByte s.buf a := by
  have := s.buflen.isLt
  rw [storeMessageByte_buf, readByte_memWrite_one]
  by_cases h : s.buflen.toNat = a
  · rw [if_pos ⟨h, by omega⟩, if_pos h, immediate]
  · rw [if_neg fun h' => h h'.1, if_neg h]

/-- After UPDATE's store the buffer holds the longer message's bytes from the last block boundary on (R153). -/
theorem Absorbed.readByte_store {m : List Byte} {s : State} (hm : Absorbed m s) (d : Byte) {i : Nat}
    (hi : i ≤ m.length % 64) :
    readByte (storeMessageByte d s).buf i = (m ++ [d]).getD (64 * (m.length / 64) + i) 0 := by
  rw [readByte_storeMessageByte, hm.count]
  by_cases h : m.length % 64 = i
  · rw [if_pos h, List.getD_append_right _ _ _ _ (by omega), show 64 * (m.length / 64) + i - m.length = 0 by omega]
    rfl
  · rw [if_neg h, hm.tail i (by omega), List.getD_append _ _ _ _ (by omega)]

/-- UPDATE inside a block: the byte joins the buffered ones (R152, R153). -/
theorem Absorbed.advance {m : List Byte} {s : State} (hm : Absorbed m s) (d : Byte) (h : m.length % 64 < 63) :
    Absorbed (m ++ [d]) (advanceBuflen (storeMessageByte d s)) := by
  have hlength : (m ++ [d]).length = m.length + 1 := List.length_append
  have hdiv : (m ++ [d]).length / 64 = m.length / 64 := by rw [hlength]; omega
  have hmod : (m ++ [d]).length % 64 = m.length % 64 + 1 := by rw [hlength]; omega
  constructor
  case hash =>
    rw [blocksOf_append m [d] 0 hdiv, List.range_zero, List.map_nil, List.append_nil, advanceBuflen_h,
      storeMessageByte_h, hm.hash]
  case count =>
    rw [hmod, advanceBuflen_buflen, storeMessageByte_buflen, BitVec.toNat_add, hm.count]
    exact Nat.mod_eq_of_lt (by rw [show (1 : BitVec 6).toNat = 1 from rfl]; omega)
  case tail =>
    rw [hdiv, hmod]
    exact fun i hi => hm.readByte_store d (by omega)
  case length =>
    rw [hdiv, advanceBuflen_bitlen, storeMessageByte_bitlen, hm.length]
  case overflow =>
    rw [advanceBuflen_lenOvf, storeMessageByte_lenOvf, hm.overflow, hlength, decide_eq_decide]
    omega
  case phase => rw [advanceBuflen_phase, storeMessageByte_phase, hm.phase]

/-- UPDATE of the last byte of a block: the block is compressed and counted (R155, R156). -/
theorem Absorbed.close {m : List Byte} {s : State} (hm : Absorbed m s) (d : Byte) (h : m.length % 64 = 63) :
    Absorbed (m ++ [d]) (closeBlock (compress (storeMessageByte d s))) := by
  have hlength : (m ++ [d]).length = m.length + 1 := List.length_append
  have hdiv : (m ++ [d]).length / 64 = m.length / 64 + 1 := by rw [hlength]; omega
  have hmod : (m ++ [d]).length % 64 = 0 := by rw [hlength]; omega
  have hblock : (storeMessageByte d s).buf = blockAt (m ++ [d]) (m.length / 64) := by
    apply memory_ext
    intro i hi
    rw [hm.readByte_store d (by omega), blockAt, readByte_tabulate, if_pos hi]
  constructor
  case hash =>
    rw [closeBlock_h, compress_h_eq_cmpBlock, hblock, storeMessageByte_h, hm.hash, blocksOf_append m [d] 1 hdiv]
    simp
  case count => rw [hmod]; rfl
  case tail => exact fun i hi => absurd hi (by omega)
  case length =>
    simp only [closeBlock_bitlen, compress_bitlen, storeMessageByte_bitlen, add64, BitVec.toNat_add, hm.length, hdiv,
      toNat_blockBits]
    omega
  case overflow =>
    simp only [closeBlock_lenOvf, lenOvfAfterBlock, carry64, compress_lenOvf, storeMessageByte_lenOvf,
      compress_bitlen, storeMessageByte_bitlen, hm.overflow, hm.length, toNat_blockBits, hlength,
      ← Bool.decide_or, decide_eq_decide]
    omega
  case phase => rw [closeBlock_phase, compress_phase, storeMessageByte_phase, hm.phase]

theorem Absorbed.appendByte {m : List Byte} {s : State} (hm : Absorbed m s) (d : Byte) :
    Absorbed (m ++ [d]) (appendByte d s) := by
  have hiff := blockCompletes_iff s
  rw [hm.count] at hiff
  unfold Machine.appendByte
  split
  · exact hm.close d (hiff.mp ‹_›)
  · have := mt hiff.mpr ‹_›
    exact hm.advance d (by omega)

/-- The UPDATE commands of a byte string append it to the message (20_memory.md R74, R157). -/
theorem Absorbed.updates {m : List Byte} {s : State} (hm : Absorbed m s) (bytes : List Byte) :
    Absorbed (m ++ bytes) ((updatesOf bytes).foldl (fun s i => afterCommand i s) s) := by
  induction bytes generalizing m s with
  | nil => simpa [updatesOf] using hm
  | cons d rest ih =>
    have hd : afterCommand (.update d) s = Machine.appendByte d s := by
      simp only [afterCommand, afterUpdate, hm.phase]
    have := ih (hm.appendByte d)
    rwa [← hd, List.append_assoc] at this

end Sys2Proof.Machine

namespace Sys2Proof.Machine

/-! ### What FINAL compresses and delivers -/

theorem needsTwoBlocks_iff (n : BitVec 6) : needsTwoBlocks n = true ↔ 56 ≤ n.toNat := by
  simp [needsTwoBlocks]

theorem padBuffer_of_le {n : BitVec 6} (hn : n.toNat ≤ 55) (s : State) :
    padBuffer n s = zeroFill (n.toNat + 1) 55 (storePadByte n s) := by
  rw [padBuffer, if_neg (mt (needsTwoBlocks_iff n).mp (by omega))]

theorem padBuffer_of_ge {n : BitVec 6} (hn : 56 ≤ n.toNat) (s : State) :
    padBuffer n s = zeroFill 0 55 (compress (zeroFill (n.toNat + 1) 63 (storePadByte n s))) := by
  rw [padBuffer, if_pos ((needsTwoBlocks_iff n).mpr hn)]

/-- What the buffer reads after the pad byte and a zero fill behind it (42_finalize.md R172). -/
theorem readByte_zeroFill_storePadByte (n : BitVec 6) (s : State) (last b : Nat) (h : n.toNat ≤ last) (hb : b < 64) :
    readByte (zeroFill (n.toNat + 1) last (storePadByte n s)).buf b =
      if b < n.toNat then readByte s.buf b else if b = n.toNat then 0x80
      else if b ≤ last then 0 else readByte s.buf b := by
  rw [zeroFill_buf, readByte_zeroLoop _ _ _ _ (by omega), storePadByte_buf, readByte_memWrite_one, padByte]
  grind

/-- With `n <= 55` the buffer FINAL compresses is the single padding block (R172, R174). -/
theorem storeLength_padBuffer_of_le {n : BitVec 6} (hn : n.toNat ≤ 55) (s : State) :
    (storeLength (padBuffer n s)).buf = onlyPadBlock s.buf n.toNat s.total := by
  apply memory_ext
  intro b hb
  rw [storeLength_buf, readByte_memWrite, lengthOffset, padBuffer_total, padBuffer_of_le hn,
    readByte_zeroFill_storePadByte n s 55 b hn hb, onlyPadBlock, readByte_tabulate, if_pos hb]
  grind

/-- With `n >= 56` the first padding block is compressed before the buffer is cleared (R172, R173). -/
theorem padBuffer_h_of_ge {n : BitVec 6} (hn : 56 ≤ n.toNat) (s : State) :
    (padBuffer n s).h = cmpBlock s.h (firstPadBlock s.buf n.toNat) := by
  have hlt := n.isLt
  have hblock : (zeroFill (n.toNat + 1) 63 (storePadByte n s)).buf = firstPadBlock s.buf n.toNat := by
    apply memory_ext
    intro b hb
    rw [readByte_zeroFill_storePadByte n s 63 b (by omega) hb, firstPadBlock, readByte_tabulate, if_pos hb]
    grind
  rw [padBuffer_of_ge hn, zeroFill_h, compress_h_eq_cmpBlock, hblock, zeroFill_h, storePadByte_h]

theorem padBuffer_h_of_le {n : BitVec 6} (hn : n.toNat ≤ 55) (s : State) : (padBuffer n s).h = s.h := by
  rw [padBuffer_of_le hn, zeroFill_h, storePadByte_h]

/-- With `n >= 56` the buffer FINAL compresses last is the second padding block (R173, R174). -/
theorem storeLength_padBuffer_of_ge {n : BitVec 6} (hn : 56 ≤ n.toNat) (s : State) :
    (storeLength (padBuffer n s)).buf = secondPadBlock s.total := by
  apply memory_ext
  intro b hb
  rw [storeLength_buf, readByte_memWrite, lengthOffset, padBuffer_total, padBuffer_of_ge hn,
    zeroFill_buf, readByte_zeroLoop _ _ _ _ (by decide), secondPadBlock, readByte_tabulate, if_pos hb]
  grind

theorem finishMessage_h (s : State) :
    (finishMessage s).h = cmpBlock (padBuffer s.buflen (latchTotal s.buflen s)).h
      (storeLength (padBuffer s.buflen (latchTotal s.buflen s))).buf := by
  rw [finishMessage, enterDone_h, writeDigest_h, compress_h_eq_cmpBlock, storeLength_h]

/-- FINAL in one block (R172, R174, R175). -/
theorem finishMessage_h_of_le {s : State} (hn : s.buflen.toNat ≤ 55) :
    (finishMessage s).h =
      cmpBlock s.h (onlyPadBlock s.buf s.buflen.toNat (add64 s.bitlen (bufferedBits s.buflen))) := by
  rw [finishMessage_h, padBuffer_h_of_le hn, storeLength_padBuffer_of_le hn]
  rfl

/-- FINAL in two blocks (R172 to R175). -/
theorem finishMessage_h_of_ge {s : State} (hn : 56 ≤ s.buflen.toNat) :
    (finishMessage s).h =
      cmpBlock (cmpBlock s.h (firstPadBlock s.buf s.buflen.toNat))
        (secondPadBlock (add64 s.bitlen (bufferedBits s.buflen))) := by
  rw [finishMessage_h, padBuffer_h_of_ge hn, storeLength_padBuffer_of_ge hn]
  rfl

theorem byteOf_four (v : Word) {k : Nat} (hk : k < 4) : byteOf 4 v k = byteOfWord v k := by
  rw [byteOf, byteOfWord, show 8 * (4 - k - 1) = 24 - 8 * k by omega]

/-- The serialiser writes all of DIGEST, whatever it held (R176). -/
theorem serialise_eq_digestOf (h : Vector Word 8) (out : Vector Byte 32) : serialise h out = digestOf h := by
  apply memory_ext
  intro b hb
  have written := forLoop_induct
    (fun i acc => b < 4 * i → readByte acc b = byteOfWord (h[b / 4]?.getD 0) (b % 4))
    0 7 (writeHashWord h) out (by decide) (fun h => absurd h (Nat.not_lt_zero b)) (by
      intro i acc _ _ hacc hbi
      rw [writeHashWord, wordOffset, readByte_memWrite]
      by_cases hword : 4 * i ≤ b
      · rw [if_pos ⟨hword, by omega, hb⟩, byteOf_four _ (by omega), show b - 4 * i = b % 4 by omega,
          show i = b / 4 by omega]
      · rw [if_neg (by omega), hacc (by omega)])
  rw [serialise, written (by omega), digestOf, readByte_tabulate, if_pos hb]

theorem finishMessage_digest (s : State) : (finishMessage s).digest = digestOf (finishMessage s).h := by
  simp only [finishMessage, enterDone_digest, writeDigest_digest, serialise_eq_digestOf, enterDone_h, writeDigest_h]

/-! ### The padded message -/

theorem length_padMessage (m : List Byte) : (padMessage m).length = m.length + padZeros m.length + 9 := by
  simp only [padMessage, lengthBytes, List.length_append, List.length_cons, List.length_replicate, List.length_map,
    List.length_range]
  omega

/-- The bytes of the padding, counted from the end of the message (R179). -/
theorem getD_padMessage (m : List Byte) {k : Nat} (hk : k < padZeros m.length + 9) :
    (padMessage m).getD (m.length + k) 0 =
      if k = 0 then 0x80 else if k ≤ padZeros m.length then 0
      else BitVec.ofNat 8 (8 * m.length / 2 ^ (8 * (7 - (k - padZeros m.length - 1)))) := by
  rw [padMessage, List.getD_append_right _ _ _ _ (by omega), Nat.add_sub_cancel_left]
  cases k with
  | zero => rfl
  | succ k =>
    rw [List.getD_cons_succ, if_neg (Nat.succ_ne_zero k)]
    by_cases hzero : k < padZeros m.length
    · rw [if_pos (by omega), List.getD_append _ _ _ _ (by simpa using hzero), List.getD_replicate _ hzero]
    · rw [if_neg (by omega), List.getD_append_right _ _ _ _ (by simpa using hzero), List.length_replicate,
        show k + 1 - padZeros m.length - 1 = k - padZeros m.length by omega, lengthBytes,
        List.getD_eq_getElem _ _ (by simp; omega), List.getElem_map, List.getElem_range]

/-- A byte of the length register is the byte of the length, modulo 2^64 (R174, R181). -/
theorem byteOf_eight_ofNat (bits k : Nat) :
    byteOf 8 (BitVec.ofNat 64 bits) k = BitVec.ofNat 8 (bits / 2 ^ (8 * (7 - k))) := by
  apply BitVec.eq_of_getLsbD_eq
  intro i hi
  have hbit : 8 * (8 - k - 1) + i < 64 := by omega
  rw [byteOf, BitVec.getLsbD_extractLsb', BitVec.getLsbD_ofNat, BitVec.getLsbD_ofNat, Nat.testBit_div_two_pow]
  simp only [hi, hbit, decide_true, Bool.true_and]
  congr 1
  omega

theorem toNat_bufferedBits (n : BitVec 6) : (bufferedBits n).toNat = 8 * n.toNat := by
  have := n.isLt
  rw [bufferedBits, BitVec.toNat_setWidth, BitVec.toNat_append, ← Nat.shiftLeft_add_eq_or_of_lt (0#3).isLt,
    Nat.shiftLeft_eq, BitVec.toNat_ofNat]
  omega

/-- The latched total is the length of the message in bits, modulo 2^64 (R171, R33). -/
theorem Absorbed.total {m : List Byte} {s : State} (hm : Absorbed m s) :
    add64 s.bitlen (bufferedBits s.buflen) = BitVec.ofNat 64 (8 * m.length) := by
  apply BitVec.eq_of_toNat_eq
  rw [add64, BitVec.toNat_add, toNat_bufferedBits, hm.count, hm.length, BitVec.toNat_ofNat]
  omega

/-- Below the end of the message, a byte of the padded message is the byte in the buffer. -/
theorem Absorbed.getD_padMessage_tail {m : List Byte} {s : State} (hm : Absorbed m s) {i : Nat}
    (hi : i < m.length % 64) : (padMessage m).getD (64 * (m.length / 64) + i) 0 = readByte s.buf i := by
  rw [hm.tail i hi, padMessage, List.getD_append _ _ _ _ (by omega)]

/-- One-block case: the padding block of FINAL is the last block of the padded message (R172, R179). -/
theorem Absorbed.onlyPadBlock_eq {m : List Byte} {s : State} (hm : Absorbed m s) (hn : m.length % 64 ≤ 55) :
    onlyPadBlock s.buf s.buflen.toNat (add64 s.bitlen (bufferedBits s.buflen)) =
      blockAt (padMessage m) (m.length / 64) := by
  have hz : padZeros m.length = 55 - m.length % 64 := by unfold padZeros; omega
  apply memory_ext
  intro i hi
  rw [hm.total, hm.count, onlyPadBlock, blockAt, readByte_tabulate, readByte_tabulate, if_pos hi, if_pos hi]
  by_cases htail : i < m.length % 64
  · rw [if_pos htail, hm.getD_padMessage_tail htail]
  · rw [if_neg htail, show 64 * (m.length / 64) + i = m.length + (i - m.length % 64) by omega,
      getD_padMessage m (by omega), byteOf_eight_ofNat, hz,
      show i - m.length % 64 - (55 - m.length % 64) - 1 = i - 56 by omega]
    grind

/-- Two-block case: the first padding block is the last block but one of the padded message (R172, R179). -/
theorem Absorbed.firstPadBlock_eq {m : List Byte} {s : State} (hm : Absorbed m s) (hn : 56 ≤ m.length % 64) :
    firstPadBlock s.buf s.buflen.toNat = blockAt (padMessage m) (m.length / 64) := by
  have hz : padZeros m.length = 119 - m.length % 64 := by unfold padZeros; omega
  apply memory_ext
  intro i hi
  rw [hm.count, firstPadBlock, blockAt, readByte_tabulate, readByte_tabulate, if_pos hi, if_pos hi]
  by_cases htail : i < m.length % 64
  · rw [if_pos htail, hm.getD_padMessage_tail htail]
  · rw [if_neg htail, show 64 * (m.length / 64) + i = m.length + (i - m.length % 64) by omega,
      getD_padMessage m (by omega)]
    grind

/-- Two-block case: the second padding block is the last block of the padded message (R173, R174, R179). -/
theorem Absorbed.secondPadBlock_eq {m : List Byte} {s : State} (hm : Absorbed m s) (hn : 56 ≤ m.length % 64) :
    secondPadBlock (add64 s.bitlen (bufferedBits s.buflen)) = blockAt (padMessage m) (m.length / 64 + 1) := by
  have hz : padZeros m.length = 119 - m.length % 64 := by unfold padZeros; omega
  apply memory_ext
  intro i hi
  rw [hm.total, secondPadBlock, blockAt, readByte_tabulate, readByte_tabulate, if_pos hi, if_pos hi,
    show 64 * (m.length / 64 + 1) + i = m.length + (64 - m.length % 64 + i) by omega, getD_padMessage m (by omega),
    byteOf_eight_ofNat, hz, show 64 - m.length % 64 + i - (119 - m.length % 64) - 1 = i - 56 by omega]
  grind

/-- FINAL leaves in H the value of the padded message, whatever its length (R175, R179). -/
theorem Absorbed.finishMessage_h {m : List Byte} {s : State} (hm : Absorbed m s) :
    (finishMessage s).h = (blocksOf (padMessage m)).foldl cmpBlock ivTable := by
  have hz : padZeros m.length = (119 - m.length % 64) % 64 := rfl
  have hlen := length_padMessage m
  by_cases hn : m.length % 64 ≤ 55
  · have hblocks : blocksOf (padMessage m) = blocksOf m ++ [blockAt (padMessage m) (m.length / 64)] :=
      blocksOf_append m _ 1 (by rw [← padMessage]; omega)
    rw [finishMessage_h_of_le (by rw [hm.count]; exact hn), hm.onlyPadBlock_eq hn, hm.hash, hblocks, List.foldl_append]
    rfl
  · have hblocks : blocksOf (padMessage m) =
        blocksOf m ++ [blockAt (padMessage m) (m.length / 64), blockAt (padMessage m) (m.length / 64 + 1)] :=
      blocksOf_append m _ 2 (by rw [← padMessage]; omega)
    rw [finishMessage_h_of_ge (by rw [hm.count]; omega), hm.firstPadBlock_eq (by omega),
      hm.secondPadBlock_eq (by omega), hm.hash, hblocks, List.foldl_append]
    rfl

/-- FINAL delivers SHA-256 of the message the registers hold (00_scope.md R2). -/
theorem Absorbed.finishMessage_digest {m : List Byte} {s : State} (hm : Absorbed m s) :
    (finishMessage s).digest = sha256 m := by
  rw [Machine.finishMessage_digest, hm.finishMessage_h, sha256]

/-- INIT and the bytes of a message leave the registers holding the message (41_stream.md R157). -/
theorem absorbed_init_updates (m : List Byte) {s : State} (hs : s.phase ≠ .fault) :
    Absorbed m ((Instr.init :: updatesOf m).foldl (fun s i => afterCommand i s) s) := by
  have hinit : afterCommand .init s = createContext s := by rw [afterCommand, afterInit, if_neg hs]
  rw [List.foldl_cons, hinit]
  exact (absorbed_createContext s).updates m

/-- The commands of HASH answer the state FINAL leaves of registers that hold the message (30_encoding.md R100). -/
theorem execAll_hashCommands (m : List Byte) {s : State} (hs : s.phase ≠ .fault) :
    ∃ a, Absorbed m a ∧ execAll (hashCommands m) s = .next (finishMessage a) := by
  have ha := absorbed_init_updates m hs
  refine ⟨_, ha, ?_⟩
  rw [execAll_eq, hashCommands, ← List.cons_append, List.foldl_append, List.foldl_cons, List.foldl_nil, afterCommand,
    afterFinal, ha.phase]

/-- Settles O55: after INIT and the UPDATEs the registers hold the message, and FINAL pads and compresses the rest. -/
theorem hashDeliversSha256 : Obligations.HashDeliversSha256 := by
  intro m s hs
  obtain ⟨a, ha, hrun⟩ := execAll_hashCommands m hs
  have hovf : (finishMessage a).lenOvf = decide (2 ^ 61 ≤ m.length) := by rw [finishMessage_lenOvf, ha.overflow]
  refine ⟨_, hrun, rfl, finishMessage_phase a, fun hfits => ⟨?_, ha.finishMessage_digest⟩, fun hlong => ?_⟩
  · rw [hovf, decide_eq_false (Nat.not_le.mpr hfits)]
  · rw [hovf, decide_eq_true (Nat.not_lt.mp hlong)]

end Sys2Proof.Machine

namespace Sys2Proof.Machine

/-! ### Accepted words, by phase and word -/

theorem afterAccept_reserved {w : CmdWord} {s : State} {r : Reserved} (hd : decode w = .reserved r)
    (hs : s.phase ≠ .fault) : afterAccept w s = raiseFault .illegalCmd s := by
  simp only [afterAccept, hd, rejectReserved, if_neg hs]

theorem afterAccept_init {w : CmdWord} {s : State} (hd : decode w = .command .init) (hs : s.phase ≠ .fault) :
    afterAccept w s = createContext s := by
  simp only [afterAccept, hd, afterCommand, afterInit, if_neg hs]

theorem afterAccept_update_idle {w : CmdWord} {s : State} {d : Byte} (hd : decode w = .command (.update d))
    (hp : s.phase = .idle) : afterAccept w s = raiseFault .updateNoContext s := by
  simp only [afterAccept, hd, afterCommand, afterUpdate, hp]

theorem afterAccept_update_active {w : CmdWord} {s : State} {d : Byte} (hd : decode w = .command (.update d))
    (hp : s.phase = .active) : afterAccept w s = appendByte d s := by
  simp only [afterAccept, hd, afterCommand, afterUpdate, hp]

theorem afterAccept_update_done {w : CmdWord} {s : State} {d : Byte} (hd : decode w = .command (.update d))
    (hp : s.phase = .done) : afterAccept w s = raiseFault .updateAfterFinal s := by
  simp only [afterAccept, hd, afterCommand, afterUpdate, hp]

theorem afterAccept_final_idle {w : CmdWord} {s : State} (hd : decode w = .command .final) (hp : s.phase = .idle) :
    afterAccept w s = raiseFault .finalNoContext s := by
  simp only [afterAccept, hd, afterCommand, afterFinal, hp]

theorem afterAccept_final_active {w : CmdWord} {s : State} (hd : decode w = .command .final)
    (hp : s.phase = .active) : afterAccept w s = finishMessage s := by
  simp only [afterAccept, hd, afterCommand, afterFinal, hp]

theorem afterAccept_final_done {w : CmdWord} {s : State} (hd : decode w = .command .final) (hp : s.phase = .done) :
    afterAccept w s = raiseFault .finalAfterFinal s := by
  simp only [afterAccept, hd, afterCommand, afterFinal, hp]

/-- Everything an accepted word can do to the state `s` (30_encoding.md R94): `Dispatched w s t` when `t` is what the
word `w` leaves, with the phase and the word that lead there. -/
inductive Dispatched (w : CmdWord) (s : State) : State → Prop
  | discarded (hs : s.phase = .fault) : Dispatched w s s
  | faulted (c : Cause) (hs : s.phase ≠ .fault) (hc : c ≠ .none) : Dispatched w s (raiseFault c s)
  | created (hs : s.phase ≠ .fault) (hd : decode w = .command .init) : Dispatched w s (createContext s)
  | appended (d : Byte) (hp : s.phase = .active) (hd : decode w = .command (.update d)) :
      Dispatched w s (appendByte d s)
  | finished (hp : s.phase = .active) (hd : decode w = .command .final) : Dispatched w s (finishMessage s)

theorem dispatched_afterAccept (w : CmdWord) (s : State) : Dispatched w s (afterAccept w s) := by
  by_cases hs : s.phase = .fault
  · rw [afterAccept_of_fault w hs]; exact .discarded hs
  cases hd : decode w with
  | reserved r => rw [afterAccept_reserved hd hs]; exact .faulted _ hs (by decide)
  | command i =>
    cases i with
    | init => rw [afterAccept_init hd hs]; exact .created hs hd
    | update d =>
      cases hp : s.phase with
      | fault => exact absurd hp hs
      | idle => rw [afterAccept_update_idle hd hp]; exact .faulted _ hs (by decide)
      | active => rw [afterAccept_update_active hd hp]; exact .appended d hp hd
      | done => rw [afterAccept_update_done hd hp]; exact .faulted _ hs (by decide)
    | final =>
      cases hp : s.phase with
      | fault => exact absurd hp hs
      | idle => rw [afterAccept_final_idle hd hp]; exact .faulted _ hs (by decide)
      | active => rw [afterAccept_final_active hd hp]; exact .finished hp hd
      | done => rw [afterAccept_final_done hd hp]; exact .faulted _ hs (by decide)

/-! ### The block boundary of UPDATE -/

theorem appendByte_of_full {s : State} (h : s.buflen = 63) (d : Byte) :
    appendByte d s = closeBlock (compress (storeMessageByte d s)) := by
  rw [appendByte, if_pos (show blockCompletes s = true from decide_eq_true h)]

theorem appendByte_of_not_full {s : State} (h : s.buflen ≠ 63) (d : Byte) :
    appendByte d s = advanceBuflen (storeMessageByte d s) := by
  rw [appendByte, if_neg (by simpa [blockCompletes] using h)]

/-- Inside a block UPDATE leaves H as it is (41_stream.md R152). -/
theorem appendByte_h_of_not_full {s : State} (h : s.buflen ≠ 63) (d : Byte) : (appendByte d s).h = s.h := by
  rw [appendByte_of_not_full h, advanceBuflen_h, storeMessageByte_h]

/-- UPDATE counts 512 bits at a block boundary and none inside a block (R152, R156). -/
theorem appendByte_bitlen (d : Byte) (s : State) :
    (appendByte d s).bitlen = if s.buflen = 63 then add64 s.bitlen blockBits else s.bitlen := by
  by_cases h : s.buflen = 63
  · rw [if_pos h, appendByte_of_full h, closeBlock_bitlen, compress_bitlen, storeMessageByte_bitlen]
  · rw [if_neg h, appendByte_of_not_full h, advanceBuflen_bitlen, storeMessageByte_bitlen]

/-- After UPDATE the flag is set if it was, or if the counter carries at this block boundary (R32, R156). -/
theorem appendByte_lenOvf_iff (d : Byte) (s : State) :
    (appendByte d s).lenOvf = true ↔ s.lenOvf = true ∨ (s.buflen = 63 ∧ 2 ^ 64 ≤ s.bitlen.toNat + 512) := by
  by_cases h : s.buflen = 63
  · simp only [appendByte_of_full h, closeBlock_lenOvf, lenOvfAfterBlock, carry64, compress_lenOvf, compress_bitlen,
      storeMessageByte_lenOvf, storeMessageByte_bitlen, toNat_blockBits, Bool.or_eq_true, decide_eq_true_eq, h,
      true_and]
  · simp only [appendByte_of_not_full h, advanceBuflen_lenOvf, storeMessageByte_lenOvf, h, false_and, or_false]

/-- A multiple of 512 stays one when a block is counted, modulo 2^64 (R30). -/
theorem add64_blockBits_mod {x : BitVec 64} (h : x.toNat % 512 = 0) : (add64 x blockBits).toNat % 512 = 0 := by
  rw [add64, BitVec.toNat_add, toNat_blockBits]
  omega

/-! ### Which accepted words change which register -/

namespace Dispatched

variable {w : CmdWord} {s t : State}

/-- FCAUSE stays in agreement with PHASE (10_state.md R36). -/
theorem keeps_cause (h : Dispatched w s t) (hs : s.fcause = .none ↔ s.phase ≠ .fault) :
    t.fcause = .none ↔ t.phase ≠ .fault := by
  cases h with
  | discarded => exact hs
  | faulted c _ hc => simp [hc]
  | created hf => simpa using hs.mpr hf
  | appended d => simpa using hs
  | finished hp => simpa using hs.mpr (by simp [hp])

/-- BITLEN stays a multiple of 512 (R30). -/
theorem keeps_blocks (h : Dispatched w s t) (hs : s.bitlen.toNat % 512 = 0) : t.bitlen.toNat % 512 = 0 := by
  cases h with
  | discarded | faulted => exact hs
  | created => rfl
  | appended d =>
    rw [appendByte_bitlen]
    split
    · exact add64_blockBits_mod hs
    · exact hs
  | finished => rwa [finishMessage_bitlen]

/-- No accepted word leaves FAULT (60_exceptions.md R199). -/
theorem keeps_fault (h : Dispatched w s t) (hs : s.phase = .fault) : t.phase = .fault := by
  cases h with
  | discarded => exact hs
  | faulted => rfl
  | created hf => exact absurd hs hf
  | appended _ hp | finished hp => rw [hp] at hs; cases hs

theorem lenOvf_falls (h : Dispatched w s t) (hs : s.lenOvf = true) (ht : t.lenOvf = false) :
    decode w = .command .init ∧ s.phase ≠ .fault := by
  have same {u : State} (hu : u.lenOvf = s.lenOvf) : u.lenOvf ≠ false := by simp [hu, hs]
  cases h with
  | discarded | faulted => exact absurd ht (same rfl)
  | created hf hd => exact ⟨hd, hf⟩
  | appended d => exact absurd ht (by simp [(appendByte_lenOvf_iff d s).mpr (.inl hs)])
  | finished => exact absurd ht (same (finishMessage_lenOvf s))

theorem lenOvf_rises (h : Dispatched w s t) (hs : s.lenOvf = false) (ht : t.lenOvf = true) :
    (∃ d : Byte, decode w = .command (.update d)) ∧ s.phase = .active ∧ s.buflen = 63 ∧
      2 ^ 64 ≤ s.bitlen.toNat + 512 ∧ t.phase = .active := by
  have same {u : State} (hu : u.lenOvf = s.lenOvf) : u.lenOvf ≠ true := by simp [hu, hs]
  cases h with
  | discarded | faulted => exact absurd ht (same rfl)
  | created => cases ht
  | appended d hp hd =>
    obtain hset | ⟨hfull, hcarry⟩ := (appendByte_lenOvf_iff d s).mp ht
    · exact absurd hset (same rfl)
    · exact ⟨⟨d, hd⟩, hp, hfull, hcarry, by rw [appendByte_phase, hp]⟩
  | finished => exact absurd ht (same (finishMessage_lenOvf s))

theorem h_changes (h : Dispatched w s t) (hne : t.h ≠ s.h) :
    s.phase ≠ .fault ∧
      (decode w = .command .init ∨
        (s.phase = .active ∧ s.buflen = 63 ∧ ∃ d : Byte, decode w = .command (.update d)) ∨
        (s.phase = .active ∧ decode w = .command .final)) := by
  cases h with
  | discarded | faulted => exact absurd rfl hne
  | created hf hd => exact ⟨hf, .inl hd⟩
  | appended d hp hd =>
    have hfull : s.buflen = 63 := by
      by_contra hfull
      exact hne (appendByte_h_of_not_full hfull d)
    exact ⟨by simp [hp], .inr (.inl ⟨hp, hfull, d, hd⟩)⟩
  | finished hp hd => exact ⟨by simp [hp], .inr (.inr ⟨hp, hd⟩)⟩

theorem bitlen_changes (h : Dispatched w s t) (hne : t.bitlen ≠ s.bitlen) :
    s.phase ≠ .fault ∧
      (decode w = .command .init ∨
        (s.phase = .active ∧ s.buflen = 63 ∧ ∃ d : Byte, decode w = .command (.update d))) := by
  cases h with
  | discarded | faulted => exact absurd rfl hne
  | created hf hd => exact ⟨hf, .inl hd⟩
  | appended d hp hd =>
    have hfull : s.buflen = 63 := by
      by_contra hfull
      exact hne (by rw [appendByte_bitlen, if_neg hfull])
    exact ⟨by simp [hp], .inr ⟨hp, hfull, d, hd⟩⟩
  | finished => exact absurd (finishMessage_bitlen s) hne

theorem digest_changes (h : Dispatched w s t) (hne : t.digest ≠ s.digest) :
    s.phase = .active ∧ decode w = .command .final := by
  cases h with
  | discarded | faulted | created => exact absurd rfl hne
  | appended d => exact absurd (appendByte_digest d s) hne
  | finished hp hd => exact ⟨hp, hd⟩

end Dispatched

/-! ### The step: reset, an accepted word, or registers that stay -/

theorem step_of_resetTakes {s t : State} (h : step s = .next t) (hr : resetTakes s = true) :
    t = resetEvent (takeSample s) := by
  rw [step_eq, afterStep, if_pos hr] at h
  exact (Host.Outcome.next.inj h).symm

theorem resetTakes_of_accepts {s : State} (ha : accepts s = true) : resetTakes s = false :=
  resetTakes_of_none (accepts_iff.mp ha).2.1

theorem step_of_accepts {s t : State} (h : step s = .next t) (ha : accepts s = true) :
    t = beginFlight (takeSample s) (nextSample s).cmd (afterAccept (nextSample s).cmd (takeSample s)) := by
  obtain ⟨hclk, hrst, hbusy, hvalid⟩ := accepts_iff.mp ha
  rw [step_eq, afterStep] at h
  simpa [resetTakes_of_accepts ha, hclk, hrst, hbusy, hvalid] using h.symm

/-- Every register of `s` but BUSY is the same in `t`: only BUSY and the model's own fields may differ. -/
def SameRegisters (s t : State) : Prop :=
  t = { s with busy := t.busy, inputs := t.inputs, instant := t.instant, left := t.left, settle := t.settle,
               before := t.before }

namespace SameRegisters

variable {s t : State}

theorem h (hst : SameRegisters s t) : t.h = s.h := (congrArg State.h hst :)
theorem bitlen (hst : SameRegisters s t) : t.bitlen = s.bitlen := (congrArg State.bitlen hst :)
theorem lenOvf (hst : SameRegisters s t) : t.lenOvf = s.lenOvf := (congrArg State.lenOvf hst :)
theorem digest (hst : SameRegisters s t) : t.digest = s.digest := (congrArg State.digest hst :)
theorem phase (hst : SameRegisters s t) : t.phase = s.phase := (congrArg State.phase hst :)

end SameRegisters

theorem sameRegisters_takeSample (s : State) : SameRegisters s (takeSample s) := rfl

theorem sameRegisters_holdEdge (s : State) : SameRegisters s (holdEdge (takeSample s)) := by
  unfold holdEdge; split <;> rfl

theorem sameRegisters_flightEdge (s : State) : SameRegisters s (flightEdge (takeSample s)) := by
  unfold flightEdge; split <;> rfl

/-- Without reset and without an accepted word no register but BUSY changes (30_encoding.md R91; log entry 11). -/
theorem step_keeps_registers {s t : State} (h : step s = .next t) (hr : resetTakes s = false)
    (ha : accepts s = false) : SameRegisters s t := by
  rcases step_cases h with ⟨hr', -⟩ | ⟨-, -, -, rfl⟩ | ⟨-, -, -, -, rfl⟩ | ⟨-, -, -, -, -, rfl⟩ | ⟨-, ha', -⟩ |
    ⟨-, -, -, -, -, rfl⟩
  · simp [hr] at hr'
  · exact sameRegisters_takeSample s
  · exact sameRegisters_holdEdge s
  · exact sameRegisters_flightEdge s
  · simp [ha] at ha'
  · exact sameRegisters_takeSample s

/-- A step that is no reset accepts a word, which dispatch then decides about, or it leaves the registers alone. -/
theorem step_registers {s t : State} (h : step s = .next t) (hr : resetTakes s = false) :
    (accepts s = true ∧ ∃ u, Dispatched (nextSample s).cmd (takeSample s) u ∧
      t = beginFlight (takeSample s) (nextSample s).cmd u) ∨
    SameRegisters s t := by
  cases ha : accepts s with
  | true => exact .inl ⟨rfl, _, dispatched_afterAccept _ _, step_of_accepts h ha⟩
  | false => exact .inr (step_keeps_registers h hr ha)

/-! ### The invariant -/

theorem latencyOf_ne_zero (w : CmdWord) (s : State) : latencyOf w s ≠ 0 := Nat.succ_ne_zero _

theorem inv_resetEvent (s : State) : Inv (resetEvent s) where
  cause := by simp
  blocks := rfl
  flight := iff_of_true rfl (Nat.one_le_iff_ne_zero.mp (resetLatency_bounds _ _).1)
  sticky := by simp [StatusView.atReset]

theorem inv_takeSample {s : State} (hs : Inv s) : Inv (takeSample s) :=
  ⟨hs.cause, hs.blocks, hs.flight, hs.sticky⟩

/-- A too narrow assertion of rst keeps the invariant: the old status is kept, or is the present one (log entry 13). -/
theorem inv_holdEdge {s : State} (hs : Inv s) : Inv (holdEdge s) where
  cause := by simpa using hs.cause
  blocks := by simpa using hs.blocks
  flight := iff_of_true (holdEdge_busy s) (Nat.one_le_iff_ne_zero.mp (holdEdge_left_pos s))
  sticky := by
    cases hb : s.busy with
    | true => rw [holdEdge_of_busy hb]; exact hs.sticky
    | false => rw [holdEdge_of_ready hb]; exact fun hfault _ => hfault

theorem inv_flightEdge {s : State} (hs : Inv s) (hb : s.busy = true) : Inv (flightEdge s) where
  cause := by simpa using hs.cause
  blocks := by simpa using hs.blocks
  flight := by rw [flightEdge_busy hb, flightEdge_left, decide_eq_true_iff]; omega
  sticky := by
    rw [flightEdge_before, flightEdge_phase]
    exact fun hfault _ => hs.sticky hfault hb

/-- An accepted word keeps the invariant: the old status it may still show is the one it was accepted in (R234). -/
theorem inv_beginFlight {w : CmdWord} {s t : State} (hs : Inv s) (h : Dispatched w s t) : Inv (beginFlight s w t) where
  cause := h.keeps_cause hs.cause
  blocks := h.keeps_blocks hs.blocks
  flight := iff_of_true rfl (latencyOf_ne_zero w s)
  sticky := fun hfault _ => h.keeps_fault hfault

/-- Settles O51: by what a step can do, one lemma per kind of step. -/
theorem stepKeepsInvariant : Obligations.StepKeepsInvariant := by
  intro s t hs h
  have hs' := inv_takeSample hs
  rcases step_cases h with ⟨-, rfl⟩ | ⟨-, -, -, rfl⟩ | ⟨-, -, -, -, rfl⟩ | ⟨-, -, -, -, hb, rfl⟩ | ⟨-, -, -, rfl⟩ |
    ⟨-, -, -, -, -, rfl⟩
  · exact inv_resetEvent _
  · exact hs'
  · exact inv_holdEdge hs'
  · exact inv_flightEdge hs' hb
  · exact inv_beginFlight hs' (dispatched_afterAccept _ _)
  · exact hs'

/-- Settles O52. -/
theorem resetStateMeetsInvariant : Obligations.ResetStateMeetsInvariant where
  cause := by decide
  blocks := by decide
  flight := by decide
  sticky := by decide

/-! ### Phases and registers -/

/-- Settles O35: reset, the frame of a step that accepts nothing, and the effect of each accepted word by phase. -/
theorem phaseFollowsTable : Obligations.PhaseFollowsTable := by
  refine ⟨⟨rfl, rfl, rfl, rfl⟩, fun s t h => ⟨fun hr => ?_, fun hr ha => ?_, fun ha hf => ?_, fun ha hf => ?_⟩⟩
  · rw [step_of_resetTakes h hr, resetEvent_phase]
  · exact (step_keeps_registers h hr ha).phase
  · rw [step_of_accepts h ha, afterAccept_of_fault _ (s := takeSample s) hf]
    exact ⟨hf, rfl⟩
  · rw [step_of_accepts h ha]
    refine ⟨fun r hd => ?_, fun hd => ?_, fun d hd => ⟨fun hp => ?_, fun hp => ?_, fun hp => ?_⟩,
      fun hd => ⟨fun hp => ?_, fun hp => ?_, fun hp => ?_⟩⟩
    · rw [afterAccept_reserved hd (s := takeSample s) hf]; exact ⟨rfl, rfl⟩
    · rw [afterAccept_init hd (s := takeSample s) hf]; rfl
    · rw [afterAccept_update_active hd (s := takeSample s) hp, beginFlight_phase, appendByte_phase]; exact hp
    · rw [afterAccept_update_idle hd (s := takeSample s) hp]; exact ⟨rfl, rfl⟩
    · rw [afterAccept_update_done hd (s := takeSample s) hp]; exact ⟨rfl, rfl⟩
    · rw [afterAccept_final_active hd (s := takeSample s) hp, beginFlight_phase, finishMessage_phase]
    · rw [afterAccept_final_idle hd (s := takeSample s) hp]; exact ⟨rfl, rfl⟩
    · rw [afterAccept_final_done hd (s := takeSample s) hp]; exact ⟨rfl, rfl⟩

/-- Settles O36: the writes by the equations of INIT and UPDATE, that there are no others by what dispatch can do. -/
theorem lenOvfIsSticky : Obligations.LenOvfIsSticky := by
  refine fun s t h => ⟨fun hr => ?_, fun ha hf hd => ?_, fun d ha hp hd hfull hcarry => ?_, fun hr hs ht => ?_,
    fun hr hs ht => ?_⟩
  · rw [step_of_resetTakes h hr, resetEvent_lenOvf]
  · rw [step_of_accepts h ha, afterAccept_init hd (s := takeSample s) hf, beginFlight_lenOvf, createContext_lenOvf]
  · rw [step_of_accepts h ha, afterAccept_update_active hd (s := takeSample s) hp, beginFlight_lenOvf]
    exact (appendByte_lenOvf_iff d _).mpr (.inr ⟨hfull, hcarry⟩)
  · obtain ⟨ha, u, hu, rfl⟩ | hkeep := step_registers h hr
    · exact ⟨ha, hu.lenOvf_falls hs ht⟩
    · simp [hkeep.lenOvf, hs] at ht
  · obtain ⟨ha, u, hu, rfl⟩ | hkeep := step_registers h hr
    · exact ⟨ha, hu.lenOvf_rises hs ht⟩
    · simp [hkeep.lenOvf, hs] at ht

/-- Settles O37: only an accepted word changes a register, and dispatch says which word changes H and BITLEN. -/
theorem hashStateAndCounterWriters : Obligations.HashStateAndCounterWriters := by
  intro s t h hr
  obtain ⟨ha, u, hu, rfl⟩ | hkeep := step_registers h hr
  · exact ⟨fun hne => ⟨ha, hu.h_changes hne⟩, fun hne => ⟨ha, hu.bitlen_changes hne⟩⟩
  · exact ⟨fun hne => absurd hkeep.h hne, fun hne => absurd hkeep.bitlen hne⟩

/-! ### The output ports -/

theorem cmdReady_iff (s : State) : (outputs s).cmdReady = true ↔ s.busy = false := by
  simp [outputs, cmdReady]

theorem digestValid_iff (s : State) : (outputs s).digestValid = true ↔ s.phase = .done ∧ s.busy = false := by
  simp [outputs, digestValid]

theorem fault_iff (s : State) : (outputs s).fault = true ↔ shownPhase s = .fault := by
  simp [outputs, faultPort]

theorem phaseCode_eq_three_iff (p : Phase) : phaseCode p = 0b11 ↔ p = .fault := by
  cases p <;> decide

/-- While digest_valid = 1 the digest port shows DIGEST (20_memory.md R70). -/
theorem digest_of_digestValid {s : State} (h : (outputs s).digestValid = true) :
    (outputs s).digest = packDigest s.digest :=
  if_pos h

theorem portSettled_of_ready {s : State} (h : s.busy = false) (p : StatusPort) : portSettled p s = true := by
  simp [portSettled, h]

theorem shownPhase_of_ready {s : State} (h : s.busy = false) : shownPhase s = s.phase :=
  if_pos (portSettled_of_ready h _)

theorem shownFcause_of_ready {s : State} (h : s.busy = false) : shownFcause s = s.fcause :=
  if_pos (portSettled_of_ready h _)

theorem shownLenOvf_of_ready {s : State} (h : s.busy = false) : shownLenOvf s = s.lenOvf :=
  if_pos (portSettled_of_ready h _)

/-- Settles O38: only FINAL in ACTIVE changes DIGEST, and from DONE to DONE there is none. -/
theorem digestIsImmutableOnceProduced : Obligations.DigestIsImmutableOnceProduced := by
  intro s t h hr
  have hwriter : t.digest ≠ s.digest →
      accepts s = true ∧ s.phase = .active ∧ decode (nextSample s).cmd = .command .final := by
    intro hne
    obtain ⟨ha, u, hu, rfl⟩ | hkeep := step_registers h hr
    · exact ⟨ha, hu.digest_changes hne⟩
    · exact absurd hkeep.digest hne
  have hdone : s.phase = .done → t.digest = s.digest := by
    intro hs
    by_contra hne
    obtain ⟨-, hactive, -⟩ := hwriter hne
    rw [hs] at hactive
    cases hactive
  refine ⟨hwriter, fun hs _ => hdone hs, fun hs ht => ?_⟩
  rw [digest_of_digestValid hs, digest_of_digestValid ht, hdone ((digestValid_iff s).mp hs).1]

/-- Settles O39: fault and the phase port both read the phase shown, which is PHASE while ready. -/
theorem statusOutputsFollowState : Obligations.StatusOutputsFollowState := by
  refine fun s => ⟨cmdReady_iff s, digestValid_iff s, ?_, fun hready => ?_⟩
  · exact (fault_iff s).trans (phaseCode_eq_three_iff _).symm
  · rw [fault_iff, shownPhase_of_ready ((cmdReady_iff s).mp hready)]

/-- Settles O40: a status port is settled while ready, and before that chooses between the new and the old value. -/
theorem statusPortsSettleWhenReady : Obligations.StatusPortsSettleWhenReady := by
  refine fun s => ⟨fun hready => ?_, ?_, ?_, ?_⟩
  · have hbusy := (cmdReady_iff s).mp hready
    exact ⟨congrArg phaseCode (shownPhase_of_ready hbusy), congrArg causeCode (shownFcause_of_ready hbusy),
      shownLenOvf_of_ready hbusy⟩
  · exact (ite_eq_or_eq _ _ _).imp (congrArg phaseCode) (congrArg phaseCode)
  · exact (ite_eq_or_eq _ _ _).imp (congrArg causeCode) (congrArg causeCode)
  · exact ite_eq_or_eq _ _ _

/-- Settles O50: the registers by definition, and the ports show them, BUSY being 0. -/
theorem resetStateHasControlValues : Obligations.ResetStateHasControlValues := by
  have hready : (outputs State.reset).cmdReady = true := rfl
  obtain ⟨hphase, hcause, hovf⟩ := (statusPortsSettleWhenReady State.reset).1 hready
  exact ⟨rfl, rfl, rfl, rfl, rfl, rfl, hphase, hcause, hovf, rfl, rfl⟩

/-! ### The length of a message -/

/-- Settles O54: the registers that hold a message of any length count its bytes modulo 2^64 and mark the wrap. -/
theorem lengthCountsEveryByte : Obligations.LengthCountsEveryByte := by
  intro m s hs
  have ht := absorbed_init_updates m hs
  refine ⟨_, execAll_eq _ _, ?_, fun hovf => ?_⟩
  · rw [ht.overflow, decide_eq_true_iff]
  · have hshort : ¬ 2 ^ 61 ≤ m.length := of_decide_eq_false (ht.overflow.symm.trans hovf)
    rw [ht.length, ht.count]
    omega

end Sys2Proof.Machine

namespace Sys2Proof.Machine

/-! ### Memory reads and writes byte by byte -/

theorem bigEndian_concat (bytes : List Byte) (b : Byte) :
    bigEndian (bytes ++ [b]) = bigEndian bytes * 256 + b.toNat := by
  rw [bigEndian, List.foldl_concat, bigEndian]

/-- MemRead of one more byte appends that byte as the least significant (20_memory.md R66). -/
theorem memRead_succ {size : Nat} (m : Vector Byte size) (a n : Nat) :
    memRead m a (n + 1) = memRead m a n ++ readByte m (a + n) := by
  have hpow : 2 ^ (8 * (n + 1)) = 256 * 2 ^ (8 * n) := by rw [Nat.mul_succ, Nat.pow_add, Nat.mul_comm]
  have hdigit (x : Nat) (b : Byte) : (x * 256 + b.toNat) % 256 = b.toNat ∧ (x * 256 + b.toNat) / 256 = x := by omega
  apply BitVec.eq_of_toNat_eq
  rw [toNat_append_byte, memRead, memRead, BitVec.toNat_ofNat, BitVec.toNat_ofNat, List.range_succ, List.map_append,
    List.map_singleton, bigEndian_concat, hpow, Nat.mod_mul, (hdigit _ _).1, (hdigit _ _).2]
  omega

theorem memRead_one {size : Nat} (m : Vector Byte size) (a : Nat) : memRead m a 1 = readByte m a := by
  rw [memRead_succ m a 0, BitVec.zero_width_append, BitVec.cast_eq, Nat.add_zero]

/-- Settles O8: four bytes are BE32 of them, and each further byte is appended below. -/
theorem memReadIsBigEndian : Obligations.MemReadIsBigEndian := by
  intro size m a
  refine ⟨memRead_one m a, memRead_four m a, ?_⟩
  rw [memRead_succ, memRead_succ, memRead_succ, memRead_succ, memRead_four, be32]

/-- Settles O9: what MemWrite does to one offset, inside and outside the bytes written. -/
theorem memWritePlacesBytes : Obligations.MemWritePlacesBytes := by
  intro size m a n v hsize
  refine ⟨fun i hi => ?_, fun j hj => ?_⟩
  · rw [readByte_memWrite, if_pos (by omega), Nat.add_sub_cancel_left, byteOf]
  · rw [readByte_memWrite, if_neg (by omega)]

/-- Appending a byte below leaves the bytes there were, counted from the most significant. -/
theorem byteOf_append_of_lt {n k : Nat} (x : BitVec (8 * n)) (b : Byte) (hk : k < n) :
    byteOf (n + 1) (x ++ b) k = byteOf n x k := by
  rw [byteOf, byteOf, BitVec.extractLsb'_append_eq_of_le (by omega),
    show 8 * (n + 1 - k - 1) - 8 = 8 * (n - k - 1) by omega]

theorem byteOf_append_last {n : Nat} (x : BitVec (8 * n)) (b : Byte) : byteOf (n + 1) (x ++ b) n = b := by
  rw [byteOf, Nat.add_sub_cancel_left, Nat.sub_self, BitVec.extractLsb'_append_eq_right]

/-- Byte `k` of the value MemRead gives is the byte at offset `a + k` (20_memory.md R66). -/
theorem byteOf_memRead {size : Nat} (m : Vector Byte size) (a : Nat) {n k : Nat} (hk : k < n) :
    byteOf n (memRead m a n) k = readByte m (a + k) := by
  induction n with
  | zero => exact absurd hk (Nat.not_lt_zero k)
  | succ n ih =>
    rw [memRead_succ]
    obtain hlt | rfl := Nat.lt_succ_iff_lt_or_eq.mp hk
    · rw [byteOf_append_of_lt _ _ hlt, ih hlt]
    · exact byteOf_append_last _ _

/-- Bit `i` of a value stands in byte `n - 1 - i / 8`, counted from the most significant. -/
theorem getLsbD_eq_getLsbD_byteOf {n i : Nat} (v : BitVec (8 * n)) (hi : i < 8 * n) :
    v.getLsbD i = (byteOf n v (n - 1 - i / 8)).getLsbD (i % 8) := by
  rw [byteOf, BitVec.getLsbD_extractLsb', decide_eq_true (Nat.mod_lt i (by decide)), Bool.true_and]
  congr 1
  omega

/-- A value is determined by its bytes. -/
theorem eq_of_byteOf_eq {n : Nat} {v w : BitVec (8 * n)} (h : ∀ k, k < n → byteOf n v k = byteOf n w k) : v = w := by
  apply BitVec.eq_of_getLsbD_eq
  intro i hi
  rw [getLsbD_eq_getLsbD_byteOf v hi, getLsbD_eq_getLsbD_byteOf w hi, h _ (by omega)]

/-- Settles O10: both values have the bytes that stand in the memory after the write. -/
theorem memReadAfterWrite : Obligations.MemReadAfterWrite := by
  intro size m a n v hsize
  apply eq_of_byteOf_eq
  intro k hk
  rw [byteOf_memRead _ _ hk, readByte_memWrite, if_pos (by omega), Nat.add_sub_cancel_left]

/-! ### The digest port -/

/-- The digest port carries what MemRead of all of DIGEST gives (20_memory.md R66, R70). -/
theorem packDigest_eq_memRead (d : Vector Byte 32) : packDigest d = memRead d 0 32 := by
  have hbytes : d.toList = (List.range 32).map fun j => readByte d (0 + j) := by
    apply List.ext_getElem
    · rw [Vector.length_toList, List.length_map, List.length_range]
    · intro j hj _
      rw [Vector.getElem_toList, List.getElem_map, List.getElem_range, Nat.zero_add, readByte_of_lt]
  rw [packDigest, hbytes, memRead]

theorem extractLsb'_packDigest_byte (d : Vector Byte 32) {j : Nat} (hj : j < 32) :
    (packDigest d).extractLsb' (248 - 8 * j) 8 = readByte d j := by
  have h := byteOf_memRead d 0 hj
  rwa [byteOf, ← packDigest_eq_memRead, Nat.zero_add, show 8 * (32 - j - 1) = 248 - 8 * j by omega] at h

/-- Byte `k` of word `i` of a 256-bit value is byte `4i + k` of the value. -/
theorem byteOf_extractLsb'_word (v : BitVec 256) {i k : Nat} (hi : i < 8) (hk : k < 4) :
    byteOf 4 (v.extractLsb' (224 - 32 * i) 32) k = v.extractLsb' (248 - 8 * (4 * i + k)) 8 := by
  apply BitVec.eq_of_getLsbD_eq
  intro b hb
  have hbit : 8 * (4 - k - 1) + b < 32 := by omega
  rw [byteOf, BitVec.getLsbD_extractLsb', BitVec.getLsbD_extractLsb', BitVec.getLsbD_extractLsb',
    decide_eq_true hbit, Bool.true_and, ← Nat.add_assoc,
    show 224 - 32 * i + 8 * (4 - k - 1) = 248 - 8 * (4 * i + k) by omega]

theorem readByte_digestOf (h : Vector Word 8) {i k : Nat} (hi : i < 8) (hk : k < 4) :
    readByte (digestOf h) (4 * i + k) = byteOfWord (h[i]?.getD 0) k := by
  rw [digestOf, readByte_tabulate, if_pos (by omega), show (4 * i + k) / 4 = i by omega,
    show (4 * i + k) % 4 = k by omega]

/-- Word `i` of the serialised H on the digest port (20_memory.md R70), byte by byte. -/
theorem extractLsb'_packDigest_digestOf (h : Vector Word 8) {i : Nat} (hi : i < 8) :
    (packDigest (digestOf h)).extractLsb' (224 - 32 * i) 32 = h[i]?.getD 0 := by
  refine @eq_of_byteOf_eq 4 _ _ fun k hk => ?_
  rw [byteOf_extractLsb'_word _ hi hk, extractLsb'_packDigest_byte _ (by omega), readByte_digestOf h hi hk,
    byteOf_four _ hk]

/-- Settles O41: DIGEST by byte and by word, and the port while digest_valid = 1. -/
theorem digestPortHasByteZeroOnTop : Obligations.DigestPortHasByteZeroOnTop :=
  ⟨fun d _ hj => extractLsb'_packDigest_byte d hj, fun h _ hi => extractLsb'_packDigest_digestOf h hi,
    fun _ hvalid => digest_of_digestValid hvalid⟩

end Sys2Proof.Machine

namespace Sys2Proof

/-! ### The command word and its two fields -/

/-- A command word is its two fields, put together again (30_encoding.md R93). -/
theorem wordOf_opField_dataField (w : CmdWord) : wordOf (opField w) (dataField w) = w :=
  (BitVec.extractLsb'_append_extractLsb'_eq_extractLsb' (Nat.zero_add 8).symm).trans BitVec.extractLsb'_eq_self

@[simp] theorem opField_wordOf (op : BitVec 2) (d : Byte) : opField (wordOf op d) = op :=
  BitVec.extractLsb'_append_eq_left

@[simp] theorem dataField_wordOf (op : BitVec 2) (d : Byte) : dataField (wordOf op d) = d :=
  BitVec.extractLsb'_append_eq_right

/-- Field `op` counts whole pages of 256 words (30_encoding.md R93). -/
theorem toNat_opField (w : CmdWord) : (opField w).toNat = w.toNat / 256 := by
  rw [opField, BitVec.extractLsb'_toNat, Nat.shiftRight_eq_div_pow]
  omega

/-- The full mask leaves every word as it is: the rows of INIT and FINAL hold one word each (30_encoding.md R96). -/
theorem and_fullMask (w : CmdWord) : w &&& 0x3FF = w := BitVec.and_allOnes

/-- A word selects the row of UPDATE exactly when its field `op` is 2, whatever its data (30_encoding.md R96). -/
theorem selects_update_iff (w : CmdWord) : w &&& 0x300 = 0x200 ↔ opField w = 0b10 := by
  have hmask : w &&& wordOf 0b11 0 = wordOf (opField w) 0 := by
    conv_lhs => rw [← wordOf_opField_dataField w]
    exact BitVec.and_append.trans (congrArg₂ _ BitVec.and_allOnes BitVec.and_zero)
  calc w &&& 0x300 = 0x200
    _ ↔ wordOf (opField w) 0 = wordOf 0b10 0 := hmask ▸ Iff.rfl
    _ ↔ opField w = 0b10 := BitVec.append_left_inj _

/-! ### Decoding and encoding -/

/-- Every command is read back from its word (30_encoding.md R93, R96). -/
theorem decode_encode (i : Instr) : decode (encode i) = .command i := by
  cases i with
  | init => exact decode_of_init rfl
  | update d =>
    have hrow : encode (.update d) &&& 0x300 = 0x200 := (selects_update_iff _).mpr (opField_wordOf 0b10 d)
    rw [decode_of_update hrow]
    exact congrArg (fun d => Decoded.command (.update d)) (dataField_wordOf 0b10 d)
  | final => exact decode_of_final rfl

/-- A word that decodes to a command is the encoding of that command: no two words are the same command (R96). -/
theorem encode_of_decode {w : CmdWord} {i : Instr} (h : decode w = .command i) : encode i = w := by
  have hrow := selects_of_decode h
  cases i with
  | init | final => exact hrow.symm.trans (and_fullMask w)
  | update d =>
    obtain ⟨hop, rfl⟩ := hrow
    rw [encode, ← (selects_update_iff w).mp hop]
    exact wordOf_opField_dataField w

/-- A table row of `nbits` bits, from 10 on, numbers the words by their values (log entry 9). -/
theorem decodeTableWord_toNat {nbits : Nat} (h : 10 ≤ nbits) {w : CmdWord} {i : Instr} (hw : decode w = .command i) :
    decodeTableWord nbits w.toNat = some i := by
  have hbits : tableBits nbits w.toNat = w.toNat :=
    Nat.mod_eq_of_lt (w.isLt.trans_le (Nat.pow_le_pow_right (by decide) h))
  simp only [decodeTableWord, hbits, BitVec.ofNat_toNat, BitVec.setWidth_eq, hw, if_pos w.isLt]

/-- The command a table row names is the one its word decodes to. -/
theorem decode_of_decodeTableWord {nbits w : Nat} {i : Instr} (h : decodeTableWord nbits w = some i) :
    decode (BitVec.ofNat 10 (tableBits nbits w)) = .command i := by
  unfold decodeTableWord at h
  split at h
  · cases hd : decode (BitVec.ofNat 10 (tableBits nbits w)) with
    | command j => rw [hd] at h; exact congrArg Decoded.command (Option.some.inj h)
    | reserved r => rw [hd] at h; cases h
  · cases h

/-- Settles O27: a command is read back from its word, a word that decodes is a command's word, and the numbering of the
table keeps ten-bit words as they are. -/
theorem decodeEncodeAgree : Obligations.DecodeEncodeAgree :=
  ⟨fun i _ => ⟨encode_of_decode, fun h => h ▸ decode_encode i⟩, fun i _ =>
    ⟨decodeTableWord_toNat (by decide) (decode_encode i), decodeTableWord_toNat (by decide) (decode_encode i)⟩⟩

/-! ### The reserved words -/

/-- A reserved word selects no row of the opcode map, and its class is that of the word (30_encoding.md R96). -/
theorem decode_eq_reserved_iff {w : CmdWord} {r : Reserved} :
    decode w = .reserved r ↔
      (w &&& 0x3FF ≠ 0x100 ∧ w &&& 0x300 ≠ 0x200 ∧ w &&& 0x3FF ≠ 0x300) ∧ reservedClass w = r := by
  constructor
  · intro h
    have h1 : w &&& 0x3FF ≠ 0x100 := fun hr => by simp [decode_of_init hr] at h
    have h2 : w &&& 0x300 ≠ 0x200 := fun hr => by simp [decode_of_update hr] at h
    have h3 : w &&& 0x3FF ≠ 0x300 := fun hr => by simp [decode_of_final hr] at h
    exact ⟨⟨h1, h2, h3⟩, Decoded.reserved.inj ((decode_of_none h1 h2 h3).symm.trans h)⟩
  · rintro ⟨⟨h1, h2, h3⟩, rfl⟩
    exact decode_of_none h1 h2 h3

/-- The rows of the opcode map by the values of their words: 0x100, the page from 0x200 on, 0x300 (R96). -/
theorem selects_none_iff (w : CmdWord) :
    (w &&& 0x3FF ≠ 0x100 ∧ w &&& 0x300 ≠ 0x200 ∧ w &&& 0x3FF ≠ 0x300) ↔
      w.toNat ≠ 0x100 ∧ ¬ (0x200 ≤ w.toNat ∧ w.toNat < 0x300) ∧ w.toNat ≠ 0x300 := by
  have hupdate : w &&& 0x300 = 0x200 ↔ 0x200 ≤ w.toNat ∧ w.toNat < 0x300 := by
    rw [selects_update_iff, ← BitVec.toNat_inj, toNat_opField, show (0b10 : BitVec 2).toNat = 2 from rfl]
    omega
  simp only [and_fullMask, ne_eq, hupdate, ← BitVec.toNat_inj]
  rfl

/-- The class of a reserved word by its page of 256 words (30_encoding.md R96, R97). -/
theorem reservedClass_eq (w : CmdWord) :
    reservedClass w = if w.toNat / 256 = 0 then .opZero else if w.toNat / 256 = 1 then .initData else .finalData := by
  simp only [reservedClass, ← BitVec.toNat_inj, toNat_opField]
  rfl

/-- The values of the reserved words as the spec lists them, class by class (30_encoding.md R96, R97). -/
def Reserved.lists : Reserved → Nat → Prop
  | .opZero, n => n ≤ 0x0FF
  | .initData, n => 0x101 ≤ n ∧ n ≤ 0x1FF
  | .finalData, n => 0x301 ≤ n

/-- The decoder reserves exactly the words listed. -/
theorem decode_eq_reserved_iff_lists (w : CmdWord) (r : Reserved) : decode w = .reserved r ↔ r.lists w.toNat := by
  rw [decode_eq_reserved_iff, selects_none_iff, reservedClass_eq]
  cases r <;> split_ifs <;> simp [Reserved.lists] <;> omega

/-- Settles O29: the reserved words by the ranges of their values; the words of commands are counted. -/
theorem reservedWordsAreTheRest : Obligations.ReservedWordsAreTheRest :=
  ⟨fun w => ⟨decode_eq_reserved_iff_lists w .opZero, decode_eq_reserved_iff_lists w .initData,
    decode_eq_reserved_iff_lists w .finalData⟩, by decide +kernel⟩

/-- Settles O28: the commands are read back from their words, the other words lie in the ranges of their classes. -/
theorem specWordsDecode : Obligations.SpecWordsDecode := by
  have hreserved (w : CmdWord) (r : Reserved) (h : r.lists w.toNat) : decode w = .reserved r :=
    (decode_eq_reserved_iff_lists w r).mpr h
  refine ⟨decode_encode .init, decode_encode (.update 0x61), decode_encode (.update 0x00), decode_encode (.update 0xFF),
    decode_encode .final, hreserved _ _ ?_, hreserved _ _ ?_, hreserved _ _ ?_, hreserved _ _ ?_⟩ <;>
  simp [Reserved.lists]

end Sys2Proof

namespace Sys2Proof.Machine

/-! ### Dispatch, by phase and row -/

/-- Outside the reserved words dispatch is exec of the command (30_encoding.md R94). -/
theorem dispatchWord_of_command {w : CmdWord} {i : Instr} (hd : decode w = .command i) (s : State) :
    dispatchWord w s = exec i s := by
  rw [dispatchWord, hd]

/-- Settles O30: each row decodes to its command, and what an accepted word leaves is known for every phase. -/
theorem dispatchFollowsProcedure : Obligations.DispatchFollowsProcedure := by
  refine fun w s => ⟨fun hs => ?_, fun _ hw => ?_, fun _ hw => ?_, fun _ hw => ?_, fun hs h1 h2 h3 => ?_⟩
  · rw [dispatchWord_eq, afterAccept_of_fault w hs]
  · exact dispatchWord_of_command (decode_of_init hw) s
  · have hd := decode_of_update hw
    refine ⟨fun _ => dispatchWord_of_command hd s, fun hp => ?_, fun hp => ?_⟩
    · rw [dispatchWord_eq, afterAccept_update_done hd hp, raiseFault]
    · rw [dispatchWord_eq, afterAccept_update_idle hd hp, raiseFault]
  · have hd := decode_of_final hw
    refine ⟨fun _ => dispatchWord_of_command hd s, fun hp => ?_, fun hp => ?_⟩
    · rw [dispatchWord_eq, afterAccept_final_done hd hp, raiseFault]
    · rw [dispatchWord_eq, afterAccept_final_idle hd hp, raiseFault]
  · rw [dispatchWord_eq, afterAccept_reserved (decode_of_none h1 h2 h3) hs, raiseFault]

/-! ### The step, by what stands on the ports -/

/-- An accepted command is executed at the instant that accepts it, and is in flight after it (30_encoding.md R91). -/
theorem step_of_command {s : State} {i : Instr} (ha : accepts s = true)
    (hd : decode (nextSample s).cmd = .command i) :
    step s = onNext (beginFlight (takeSample s) (nextSample s).cmd) (exec i (takeSample s)) := by
  rw [step_eq, step_of_accepts (step_eq s) ha, exec_eq, onNext, afterAccept, hd]

theorem accepts_withFetchWord (s : State) (nbits w : Nat) : accepts (s.withFetchWord nbits w) = true := rfl

/-- Settles O43: withFetchWord puts the word of a table row on the channel, where the step accepts it as any other. -/
theorem stepRunsDecodedCommand : Obligations.StepRunsDecodedCommand :=
  ⟨fun _ _ ha hd => step_of_command ha hd, fun s nbits w _ hw =>
    step_of_command (accepts_withFetchWord s nbits w) (decode_of_decodeTableWord hw)⟩

/-- Settles O44: whatever the step does, it uses up the sample and counts the instant. -/
theorem everyEdgeAnswersNextState : Obligations.EveryEdgeAnswersNextState := by
  refine fun s => ⟨afterStep s, step_eq s, ?_⟩
  rcases step_cases (step_eq s) with ⟨-, h⟩ | ⟨-, -, -, h⟩ | ⟨-, -, -, -, h⟩ | ⟨-, -, -, -, -, h⟩ | ⟨-, -, -, h⟩ |
    ⟨-, -, -, -, -, h⟩ <;> rw [h]
  · exact ⟨rfl, rfl⟩
  · exact ⟨rfl, rfl⟩
  · exact ⟨holdEdge_inputs _, holdEdge_instant _⟩
  · exact ⟨flightEdge_inputs _, flightEdge_instant _⟩
  · exact ⟨afterAccept_inputs _ _, afterAccept_instant _ _⟩
  · exact ⟨rfl, rfl⟩

/-- An idle edge (30_encoding.md R91). -/
theorem step_of_idle {s : State} (hclk : (nextSample s).clk = true) (hrst : (nextSample s).rst = none)
    (hb : s.busy = false) (hv : (nextSample s).cmdValid = false) : step s = .next (takeSample s) := by
  rw [step_eq, afterStep]
  simp [resetTakes_of_none hrst, hclk, hrst, hb, hv]

/-- A cycle of waiting (10_state.md R40). -/
theorem step_of_busy {s : State} (hclk : (nextSample s).clk = true) (hrst : (nextSample s).rst = none)
    (hb : s.busy = true) : step s = .next (flightEdge (takeSample s)) := by
  rw [step_eq, afterStep]
  simp [resetTakes_of_none hrst, hclk, hrst, hb]

/-- An instant between two edges (30_encoding.md R92). -/
theorem step_of_no_edge {s : State} (hclk : (nextSample s).clk = false) (hrst : (nextSample s).rst = none) :
    step s = .next (takeSample s) := by
  rw [step_eq, afterStep]
  simp [resetTakes_of_none hrst, hclk]

/-- An edge at which rst is asserted: reset takes effect, or the CORE is held (70_reset_and_hazards.md R221). -/
theorem step_of_rst {s : State} (hclk : (nextSample s).clk = true) (hrst : (nextSample s).rst ≠ none) :
    step s = .next (resetEvent (takeSample s)) ∨ step s = .next (holdEdge (takeSample s)) := by
  rw [step_eq, afterStep]
  cases hr : resetTakes s with
  | true => exact .inl rfl
  | false => simp [hclk, Option.isSome_iff_ne_none.mpr hrst]

/-- A cycle of waiting writes BUSY and the cycles left only (10_state.md R40). -/
theorem flightEdge_frame (s : State) :
    flightEdge s = { s with busy := (flightEdge s).busy, left := (flightEdge s).left } := by
  unfold flightEdge; split <;> rfl

/-- A CORE held by rst changes BUSY and the model's own fields only (log entry 13). -/
theorem holdEdge_frame (s : State) :
    holdEdge s = { s with busy := true, left := (holdEdge s).left, before := (holdEdge s).before } := by
  cases hb : s.busy with
  | true => rw [holdEdge_of_busy hb, ← hb]
  | false => rw [holdEdge_of_ready hb]

theorem not_cmdReady_of_busy {s : State} (h : s.busy = true) : (outputs s).cmdReady = false := by
  simp [outputs, cmdReady, h]

/-- Settles O45: one equation of the step per clause, and the frames of waiting and of being held. -/
theorem edgesWithoutAcceptance : Obligations.EdgesWithoutAcceptance := by
  refine fun s => ⟨step_of_idle, fun hclk hrst hb => ?_, fun hclk hrst => ?_, step_of_no_edge⟩
  · have hbusy : (flightEdge (takeSample s)).busy = false ↔ s.left ≤ 1 := by
      rw [flightEdge_busy (s := takeSample s) hb, decide_eq_false_iff_not, Nat.not_lt, takeSample_left]
    exact ⟨_, step_of_busy hclk hrst hb, hbusy, flightEdge_left _, flightEdge_frame _⟩
  · obtain hstep | hstep := step_of_rst hclk hrst
    · exact ⟨_, hstep, not_cmdReady_of_busy rfl, .inl rfl⟩
    · exact ⟨_, hstep, not_cmdReady_of_busy (holdEdge_busy _), .inr (holdEdge_frame _)⟩

/-! ### The text of programs -/

/-- Settles O60: each text is read, checked and encoded. -/
theorem programTextAssembles : Obligations.ProgramTextAssembles :=
  ⟨by decide, by decide, by decide, by decide⟩

end Sys2Proof.Machine

namespace Sys2Proof.Machine

/-! ### The word functions, bit by bit -/

/-- Bit `i` of Ch is chosen by bit `i` of its first operand (R111). -/
theorem getLsbD_ch (x y z : Word) {i : Nat} (hi : i < 32) :
    (ch x y z).getLsbD i = if x.getLsbD i then y.getLsbD i else z.getLsbD i := by
  simp only [ch, BitVec.getLsbD_xor, BitVec.getLsbD_and, BitVec.getLsbD_not, hi, decide_true, Bool.true_and]
  cases x.getLsbD i <;> simp

/-- Bit `i` of Maj is the value at least two of the operand bits have (R112). -/
theorem getLsbD_maj (x y z : Word) (i : Nat) :
    (maj x y z).getLsbD i =
      decide (2 ≤ (x.getLsbD i).toNat + (y.getLsbD i).toNat + (z.getLsbD i).toNat) := by
  have majority : ∀ a b c : Bool, ((a && b) ^^ (a && c) ^^ (b && c)) = decide (2 ≤ a.toNat + b.toNat + c.toNat) := by
    decide
  simp only [maj, BitVec.getLsbD_xor, BitVec.getLsbD_and, majority]

/-- Bit `i` of an XOR of three rotations (R113). -/
theorem getLsbD_xorOfRotations (x : Word) {n0 n1 n2 i : Nat} (h0 : n0 < 32) (h1 : n1 < 32) (h2 : n2 < 32)
    (hi : i < 32) :
    (xorOfRotations n0 n1 n2 x).getLsbD i =
      (x.getLsbD ((i + n0) % 32) ^^ x.getLsbD ((i + n1) % 32) ^^ x.getLsbD ((i + n2) % 32)) := by
  rw [xorOfRotations, BitVec.getLsbD_xor, BitVec.getLsbD_xor, getLsbD_rotr x h0 hi, getLsbD_rotr x h1 hi,
    getLsbD_rotr x h2 hi]

/-- Bit `i` of an XOR of two rotations and a shift, whose shifted-out bits are lost (R114). -/
theorem getLsbD_xorWithShift (x : Word) {n0 n1 i : Nat} (shift : Nat) (h0 : n0 < 32) (h1 : n1 < 32) (hi : i < 32) :
    (xorWithShift n0 n1 shift x).getLsbD i =
      (x.getLsbD ((i + n0) % 32) ^^ x.getLsbD ((i + n1) % 32) ^^
        (decide (i + shift < 32) && x.getLsbD (i + shift))) := by
  rw [xorWithShift, BitVec.getLsbD_xor, BitVec.getLsbD_xor, getLsbD_rotr x h0 hi, getLsbD_rotr x h1 hi, getLsbD_shr]

/-- `0xFFFFFFFF` is the word of all ones. -/
theorem ones_and (x : Word) : 0xFFFFFFFF &&& x = x := BitVec.allOnes_and

/-- With all ones to choose by, Ch gives its second operand (R111). -/
theorem ch_allOnes (y z : Word) : ch 0xFFFFFFFF y z = y := by
  simpa [ch] using ones_and y

/-- With no bit to choose by, Ch gives its third operand (R111). -/
theorem ch_zero (y z : Word) : ch 0 y z = z := by
  simpa [ch] using ones_and z

/-- Choosing between a word and itself gives that word (R111). -/
theorem ch_self (x y : Word) : ch x y y = y := by
  apply BitVec.eq_of_getLsbD_eq
  intro i hi
  rw [getLsbD_ch x y y hi, ite_self]

/-- Settles O1: the formula by definition, the choice bit by bit, and the corner cases from them. -/
theorem chChoosesBitwise : Obligations.ChChoosesBitwise :=
  ⟨fun _ _ _ => rfl, fun x y z _ => getLsbD_ch x y z, fun y z => ⟨ch_zero y z, ch_allOnes y z⟩, ch_self, by decide⟩

theorem maj_comm (x y z : Word) : maj x y z = maj y x z := by
  rw [maj, maj, BitVec.and_comm x y, BitVec.xor_assoc, BitVec.xor_comm (x &&& z), ← BitVec.xor_assoc]

theorem maj_right_comm (x y z : Word) : maj x y z = maj x z y := by
  rw [maj, maj, BitVec.xor_comm (x &&& y), BitVec.and_comm y z]

/-- With all ones as one operand, a bit of Maj is set when one more of its bits is (R112). -/
theorem maj_allOnes (y z : Word) : maj 0xFFFFFFFF y z = y ||| z := by
  have hor : ∀ a b : Bool, (a ^^ b ^^ (a && b)) = (a || b) := by decide
  rw [maj, ones_and, ones_and]
  apply BitVec.eq_of_getLsbD_eq
  intro i _
  rw [BitVec.getLsbD_xor, BitVec.getLsbD_xor, BitVec.getLsbD_and, BitVec.getLsbD_or, hor]

/-- Settles O2: the formula by definition, the majority bit by bit, the corner cases and the symmetry from them. -/
theorem majTakesMajority : Obligations.MajTakesMajority :=
  ⟨fun _ _ _ => rfl, fun x y z i _ => getLsbD_maj x y z i, fun x z => by simp [maj],
    fun y z => ⟨by simp [maj], maj_allOnes y z⟩, fun x y z => ⟨maj_comm x y z, maj_right_comm x y z⟩, by decide⟩

/-- Settles O3: both Sigmas have the shape of three rotations, and the values are computed. -/
theorem bigSigmasRotate : Obligations.BigSigmasRotate := by
  refine ⟨fun x i hi => ⟨?_, ?_⟩, by decide⟩
  · exact getLsbD_xorOfRotations x (by decide) (by decide) (by decide) hi
  · exact getLsbD_xorOfRotations x (by decide) (by decide) (by decide) hi

/-- Settles O4: both sigmas have the shape of two rotations and a shift, and the values are computed. -/
theorem smallSigmasRotateAndShift : Obligations.SmallSigmasRotateAndShift := by
  refine ⟨fun x i hi => ⟨?_, ?_⟩, by decide⟩
  · exact getLsbD_xorWithShift x 3 (by decide) (by decide) hi
  · exact getLsbD_xorWithShift x 10 (by decide) (by decide) hi

/-! ### The constant tables -/

/-- Words that are the low 32 bits of the integer `k`-th roots of scaled numbers (R115, R116): the library's integer root
lies between the two powers that define it. -/
theorem exists_root_of_nthRoot {k e : Nat} (hk : k ≠ 0) {rows : List (Nat × Word)}
    (h : ∀ p ∈ rows, p.2.toNat = Nat.nthRoot k (p.1 * 2 ^ e) % 2 ^ 32) :
    ∀ p ∈ rows, ∃ r : Nat, r ^ k ≤ p.1 * 2 ^ e ∧ p.1 * 2 ^ e < (r + 1) ^ k ∧ p.2.toNat = r % 2 ^ 32 :=
  fun p hp => ⟨Nat.nthRoot k (p.1 * 2 ^ e), Nat.pow_nthRoot_le (.inl hk), Nat.lt_pow_nthRoot_add_one hk _, h p hp⟩

/-- Settles O6: each word of IV is computed as the integer square root of its prime times 2^64. -/
theorem ivFromSquareRoots : Obligations.IvFromSquareRoots :=
  ⟨rfl, by decide, exists_root_of_nthRoot (by decide) (by decide +kernel)⟩

/-- Settles O7: each word of K is computed as the integer cube root of its prime times 2^96. -/
theorem kFromCubeRoots : Obligations.KFromCubeRoots :=
  ⟨length_kTable, by decide +kernel, exists_root_of_nthRoot (by decide) (by decide +kernel)⟩

/-! ### The message schedule -/

/-- Extending a schedule leaves the words there were. -/
theorem prefix_iterate_extendSchedule (n : Nat) (ws : List Word) : ws <+: extendSchedule^[n] ws := by
  induction n with
  | zero => exact List.prefix_rfl
  | succ n ih =>
    rw [Function.iterate_succ_apply']
    exact ih.trans (List.prefix_append _ _)

/-- The first `t` words of the schedule are the block's words extended `t - 16` times (R118). -/
theorem take_scheduleOf (block : Vector Byte 64) {t : Nat} (h16 : 16 ≤ t) (h64 : t ≤ 64) :
    (scheduleOf block).take t = extendSchedule^[t - 16] (blockWords block) := by
  have hsplit : scheduleOf block = extendSchedule^[64 - t] (extendSchedule^[t - 16] (blockWords block)) := by
    rw [scheduleOf, ← Function.iterate_add_apply]
    congr 1
    omega
  have hlen : (extendSchedule^[t - 16] (blockWords block)).length = t := by
    rw [length_iterate_extendSchedule, length_blockWords]
    omega
  have hprefix := prefix_iterate_extendSchedule (64 - t) (extendSchedule^[t - 16] (blockWords block))
  rw [← hsplit, List.prefix_iff_eq_take, hlen] at hprefix
  exact hprefix.symm

theorem getD_take_of_lt {ws : List Word} {t i : Nat} (h : i < t) : (ws.take t).getD i 0 = ws.getD i 0 := by
  simp [List.getD_eq_getElem?_getD, h]

/-- The first 16 words of the schedule are BE32 of the block (R117). -/
theorem getD_scheduleOf_of_lt (block : Vector Byte 64) {t : Nat} (ht : t < 16) :
    (scheduleOf block).getD t 0 = be32 (readByte block (4 * t)) (readByte block (4 * t + 1))
      (readByte block (4 * t + 2)) (readByte block (4 * t + 3)) := by
  have htake : (scheduleOf block).take 16 = blockWords block := take_scheduleOf block (by decide) (by decide)
  rw [← getD_take_of_lt ht, htake]
  simp [blockWords, List.getD_eq_getElem?_getD, ht]

/-- Every later word of the schedule follows the recurrence (R118). -/
theorem getD_scheduleOf_of_ge (block : Vector Byte 64) {t : Nat} (h16 : 16 ≤ t) (h64 : t < 64) :
    (scheduleOf block).getD t 0 = recurrence ((scheduleOf block).getD (t - 2) 0) ((scheduleOf block).getD (t - 7) 0)
      ((scheduleOf block).getD (t - 15) 0) ((scheduleOf block).getD (t - 16) 0) := by
  have hlen : ((scheduleOf block).take t).length = t := by
    rw [List.length_take, length_scheduleOf]
    omega
  have hnext : (scheduleOf block).take (t + 1) = extendSchedule ((scheduleOf block).take t) := by
    rw [take_scheduleOf block (by omega) h64, show t + 1 - 16 = t - 16 + 1 by omega, Function.iterate_succ_apply',
      take_scheduleOf block h16 (by omega)]
  have back : ∀ k, 0 < k → ((scheduleOf block).take t).getD (t - k) 0 = (scheduleOf block).getD (t - k) 0 :=
    fun k hk => getD_take_of_lt (by omega)
  rw [← getD_take_of_lt (Nat.lt_succ_self t), hnext, extendSchedule, hlen, back 2 (by decide), back 7 (by decide),
    back 15 (by decide), back 16 (by decide), List.getD_append_right _ _ _ _ hlen.le, hlen, Nat.sub_self,
    List.getD_cons_zero]

/-- The words of W after LOAD and EXPAND, one by one (R117, R118). -/
theorem scheduleWord_buildSchedule (block : Vector Byte 64) (c : Scratch) (t : Nat) :
    scheduleWord (buildSchedule block c).w t = (scheduleOf block).getD t 0 := by
  rw [← buildSchedule_w block c, scheduleWord, List.getD_eq_getElem?_getD, Vector.getElem?_toList]

/-- LOAD and EXPAND write W and the index only (R117, R118). -/
theorem buildSchedule_frame (block : Vector Byte 64) (c : Scratch) :
    buildSchedule block c = { c with w := (buildSchedule block c).w, t := (buildSchedule block c).t } := by
  have hload := forLoop_induct (fun _ d => d = { c with w := d.w, t := d.t }) 0 15 (loadWord block) c (by decide) rfl
    (fun i d _ _ hd => by rw [hd]; rfl)
  exact forLoop_induct (fun _ d => d = { c with w := d.w, t := d.t }) 16 63 expandWord _ (by decide) hload
    (fun i d _ _ hd => by rw [hd]; rfl)

theorem getD_replicate_zero (n i : Nat) : (List.replicate n (0 : Word)).getD i 0 = 0 := by
  rw [List.getD_eq_getElem?_getD, List.getElem?_getD_replicate_default_eq]

/-- The recurrence of zero words is zero, so zero words extend by zero (R118). -/
theorem extendSchedule_replicate_zero (n : Nat) :
    extendSchedule (List.replicate n 0) = List.replicate (n + 1) 0 := by
  have hrec : recurrence 0 0 0 0 = 0 := by decide
  rw [extendSchedule, getD_replicate_zero, getD_replicate_zero, getD_replicate_zero, getD_replicate_zero, hrec,
    List.replicate_succ']

theorem iterate_extendSchedule_replicate_zero (k n : Nat) :
    extendSchedule^[k] (List.replicate n 0) = List.replicate (n + k) 0 := by
  induction k with
  | zero => rfl
  | succ k ih => rw [Function.iterate_succ_apply', ih, extendSchedule_replicate_zero, Nat.add_assoc]

/-- The schedule of a block of zero bytes is zero (R118). -/
theorem scheduleOf_zero : scheduleOf (Vector.replicate 64 0) = List.replicate 64 0 := by
  have hwords : blockWords (Vector.replicate 64 0) = List.replicate 16 0 := by decide
  rw [scheduleOf, hwords, iterate_extendSchedule_replicate_zero]

/-- Settles O11: W after LOAD and EXPAND is the schedule of the block, whose words are known one by one. -/
theorem scheduleFollowsRecurrence : Obligations.ScheduleFollowsRecurrence := by
  refine ⟨fun block c t => ?_, buildSchedule_frame, fun c t _ => ?_⟩
  · simp only [scheduleWord_buildSchedule]
    exact ⟨getD_scheduleOf_of_lt block, getD_scheduleOf_of_ge block⟩
  · rw [scheduleWord_buildSchedule, scheduleOf_zero, getD_replicate_zero]

/-! ### The rounds -/

/-- Settles O12: INITV is this update of the scratch registers. -/
theorem initVarsCopyHashState : Obligations.InitVarsCopyHashState := fun _ _ => rfl

/-- Settles O13: a round is these updates by definition, and the example computes T1 and T2 of round 0. -/
theorem roundUpdatesVariables : Obligations.RoundUpdatesVariables := by
  refine ⟨fun t c _ => ⟨rfl, rfl, rfl, rfl⟩, fun c hvars hw => ?_⟩
  simp only [roundStep, hvars, hw]
  decide

/-- The variables before a round as far as the round only moved them; d and h, which it added T1 to or took T1 from,
are left 0 (R121). -/
def movedBack (v : Vars) : Vars := { a := v.b, b := v.c, c := v.d, d := 0, e := v.f, f := v.g, g := v.h, h := 0 }

/-- T1 of the round that gave `v`: what is in a beyond T2, which depends on moved variables only (R121). -/
def t1Of (v : Vars) : Word := v.a - roundT2 (movedBack v)

/-- The round taken back: d and h by subtracting from e and from T1 (R126). -/
def unroundVars (kt wt : Word) (v : Vars) : Vars :=
  { movedBack v with d := v.e - t1Of v, h := t1Of v - roundT1 kt wt (movedBack v) }

/-- h enters T1 as a summand and nowhere else, and d not at all (R121). -/
theorem roundT1_eq_add (kt wt : Word) (v : Vars) :
    roundT1 kt wt v = v.h + roundT1 kt wt { v with d := 0, h := 0 } := by
  simp only [roundT1, add32, zero_add, add_assoc]

theorem movedBack_roundVars (kt wt : Word) (v : Vars) : movedBack (roundVars kt wt v) = { v with d := 0, h := 0 } := rfl

theorem t1Of_roundVars (kt wt : Word) (v : Vars) : t1Of (roundVars kt wt v) = roundT1 kt wt v :=
  add_sub_cancel_right (roundT1 kt wt v) (roundT2 v)

theorem roundT1_unroundVars (kt wt : Word) (v : Vars) : roundT1 kt wt (unroundVars kt wt v) = t1Of v :=
  (roundT1_eq_add kt wt _).trans (sub_add_cancel (t1Of v) (roundT1 kt wt (movedBack v)))

theorem unroundVars_roundVars (kt wt : Word) (v : Vars) : unroundVars kt wt (roundVars kt wt v) = v := by
  have hd : (roundVars kt wt v).e - roundT1 kt wt v = v.d := add_sub_cancel_right v.d (roundT1 kt wt v)
  have hh : roundT1 kt wt v - roundT1 kt wt { v with d := 0, h := 0 } = v.h := by
    rw [roundT1_eq_add, add_sub_cancel_right]
  rw [unroundVars, t1Of_roundVars, movedBack_roundVars, hd, hh]

theorem roundVars_unroundVars (kt wt : Word) (v : Vars) : roundVars kt wt (unroundVars kt wt v) = v := by
  have ha : add32 (t1Of v) (roundT2 (unroundVars kt wt v)) = v.a := sub_add_cancel v.a (roundT2 (movedBack v))
  have he : add32 (unroundVars kt wt v).d (t1Of v) = v.e := sub_add_cancel v.e (t1Of v)
  rw [roundVars, roundT1_unroundVars, rotateVars, ha, he]
  rfl

/-- Settles O17: the round and `unroundVars` undo each other. -/
theorem roundIsInvertible : Obligations.RoundIsInvertible := fun kt wt =>
  Function.bijective_iff_has_inverse.mpr ⟨unroundVars kt wt, unroundVars_roundVars kt wt, roundVars_unroundVars kt wt⟩

/-! ### COMPRESS as a whole -/

/-- Settles O14: the feed-forward by definition, addition of words as numbers, and the two sums. -/
theorem feedForwardAddsBack : Obligations.FeedForwardAddsBack := fun _ _ =>
  ⟨rfl, BitVec.toNat_add, by decide, by decide⟩

/-- Settles O15: H is cmp of H and BUF, and COMPRESS writes H and the scratch alone. -/
theorem compressComputesCmp : Obligations.CompressComputesCmp := fun s => ⟨compress_h_eq_cmpBlock s, rfl, rfl⟩

/-- INITV and round 0 write every scratch register but W (R119, R121, R124), so the rounds depend on W alone. -/
theorem runRounds_congr (h : Vector Word 8) {c d : Scratch} (hw : c.w = d.w) : runRounds h c = runRounds h d := by
  have hfirst : roundStep 0 (initVars h c) = roundStep 0 (initVars h d) := by simp only [roundStep, initVars, hw]
  rw [runRounds, runRounds, forLoop_first (by decide), hfirst, ← forLoop_first (by decide)]

/-- The scratch a COMPRESS leaves does not depend on the scratch it finds (R124). -/
theorem compressScratch_congr (h : Vector Word 8) (block : Vector Byte 64) (c d : Scratch) :
    compressScratch h block c = compressScratch h block d := by
  have hw : (buildSchedule block c).w = (buildSchedule block d).w := by
    rw [← Vector.toList_inj, buildSchedule_w, buildSchedule_w]
  rw [compressScratch, compressScratch, runRounds_congr h hw]

/-- Settles O16: COMPRESS writes what it leaves in the scratch before it reads it, and H is computed from that. -/
theorem scratchIsDeadBeforeCompress : Obligations.ScratchIsDeadBeforeCompress := by
  intro s c
  refine ⟨?_, ?_⟩
  · rw [compress_h_eq_cmpBlock, compress_h_eq_cmpBlock]
  · rw [compress_scratch, compress_scratch]
    exact compressScratch_congr _ _ _ _

/-- Settles O18: the compression of one block, computed. -/
theorem abcBlockCompresses : Obligations.AbcBlockCompresses := by
  unfold Obligations.AbcBlockCompresses
  decide +kernel

end Sys2Proof.Machine

namespace Sys2Proof.Machine

/-! ### INIT and UPDATE, by phase -/

theorem exec_init_of_not_fault {s : State} (hs : s.phase ≠ .fault) : exec .init s = .next (createContext s) := by
  rw [exec_eq, afterCommand, afterInit, if_neg hs]

theorem exec_init_of_fault {s : State} (hs : s.phase = .fault) : exec .init s = .next s := by
  rw [exec_eq, afterCommand, afterInit, if_pos hs]

theorem exec_update_of_active {s : State} (hp : s.phase = .active) (d : Byte) :
    exec (.update d) s = .next (appendByte d s) := by
  rw [exec_eq, afterCommand, afterUpdate, hp]

/-! ### The buffer under UPDATE -/

/-- A block boundary leaves the stored byte and the stale bytes in BUF (41_stream.md R155). -/
theorem appendByte_buf (d : Byte) (s : State) : (appendByte d s).buf = (storeMessageByte d s).buf := by
  by_cases h : s.buflen = 63
  · rw [appendByte_of_full h, closeBlock_buf, compress_buf]
  · rw [appendByte_of_not_full h, advanceBuflen_buf]

theorem readByte_appendByte (d : Byte) (s : State) (a : Nat) :
    readByte (appendByte d s).buf a = if storeOffset s = a then d else readByte s.buf a := by
  rw [appendByte_buf, readByte_storeMessageByte, storeOffset]

theorem readByte_appendByte_same (d : Byte) (s : State) : readByte (appendByte d s).buf (storeOffset s) = d := by
  rw [readByte_appendByte, if_pos rfl]

theorem readByte_appendByte_other (d : Byte) (s : State) {a : Nat} (ha : a ≠ storeOffset s) :
    readByte (appendByte d s).buf a = readByte s.buf a := by
  rw [readByte_appendByte, if_neg ha.symm]

/-- BUFLEN counts modulo 64: emptying a full buffer is counting on in six bits (R152, R155). -/
theorem appendByte_buflen (d : Byte) (s : State) : (appendByte d s).buflen = s.buflen + 1 := by
  by_cases h : s.buflen = 63
  · rw [appendByte_of_full h, closeBlock_buflen, h]; rfl
  · rw [appendByte_of_not_full h, advanceBuflen_buflen, storeMessageByte_buflen]

theorem appendByte_buflen_of_full {s : State} (h : s.buflen = 63) (d : Byte) : (appendByte d s).buflen = 0 := by
  rw [appendByte_of_full h, closeBlock_buflen]

/-- At a block boundary H takes in the buffer with the new byte (R155). -/
theorem appendByte_h_of_full {s : State} (h : s.buflen = 63) (d : Byte) :
    (appendByte d s).h = cmpBlock s.h (appendByte d s).buf := by
  rw [appendByte_buf, appendByte_of_full h, closeBlock_h, compress_h_eq_cmpBlock, storeMessageByte_h]

theorem toNat_appendByte_bitlen_of_full {s : State} (h : s.buflen = 63) (d : Byte) :
    (appendByte d s).bitlen.toNat = (s.bitlen.toNat + 512) % 2 ^ 64 := by
  rw [appendByte_bitlen, if_pos h, add64, BitVec.toNat_add, toNat_blockBits]

/-- Inside a block UPDATE writes BUF and BUFLEN alone (R152, R153). -/
theorem appendByte_frame_of_not_full {s : State} (h : s.buflen ≠ 63) (d : Byte) :
    appendByte d s = { s with buf := (appendByte d s).buf, buflen := (appendByte d s).buflen } := by
  rw [appendByte_of_not_full h]
  rfl

/-- At a block boundary UPDATE writes the context and the scratch, but neither PHASE nor DIGEST (R155, R156). -/
theorem appendByte_frame_of_full {s : State} (h : s.buflen = 63) (d : Byte) :
    appendByte d s =
      { s with
        h := (appendByte d s).h, buf := (appendByte d s).buf, buflen := (appendByte d s).buflen
        bitlen := (appendByte d s).bitlen, lenOvf := (appendByte d s).lenOvf
        scratch := (appendByte d s).scratch } := by
  rw [appendByte_of_full h]
  rfl

/-- Settles O20: the store is one byte at offset BUFLEN, and BUFLEN counts in six bits. -/
theorem updateStoresAtBuflen : Obligations.UpdateStoresAtBuflen := by
  intro s d hp
  refine ⟨appendByte d s, exec_update_of_active hp d, rfl, readByte_appendByte_same d s,
    fun a ha => readByte_appendByte_other d s ha, fun a => by rw [appendByte_digest], ?_, fun hlt => ?_⟩
  · rw [appendByte_buflen, BitVec.toNat_add]
    rfl
  · have hne : s.buflen ≠ 63 := fun h => by simp [h] at hlt
    exact appendByte_frame_of_not_full hne d

/-- Settles O21: at BUFLEN = 63 the store completes the block that COMPRESS takes in. -/
theorem updateCompressesFullBlock : Obligations.UpdateCompressesFullBlock := by
  intro s d hp hfull
  have hoffset : storeOffset s = 63 := by rw [storeOffset, hfull]; rfl
  exact ⟨appendByte d s, exec_update_of_active hp d, readByte_appendByte_same d s, hoffset,
    fun a ha => readByte_appendByte_other d s ha, appendByte_h_of_full hfull d, appendByte_buflen_of_full hfull d,
    toNat_appendByte_bitlen_of_full hfull d, by rw [appendByte_phase, hp], fun a => by rw [appendByte_digest],
    appendByte_frame_of_full hfull d⟩

/-- Settles O22: the carry out of bit 63 is the sum reaching 2^64, which a multiple of 512 does only at the last one. -/
theorem lengthCounterWrapsIntoFlag : Obligations.LengthCounterWrapsIntoFlag := by
  intro s d hp hfull
  have hbits := toNat_appendByte_bitlen_of_full hfull d
  refine ⟨appendByte d s, exec_update_of_active hp d, hbits, ?_, fun hmultiple => ⟨?_, fun hlast => ?_⟩,
    by rw [appendByte_phase, hp], appendByte_fcause d s⟩
  · simpa only [hfull, true_and] using appendByte_lenOvf_iff d s
  · have := s.bitlen.isLt
    omega
  · apply BitVec.eq_of_toNat_eq
    rw [hbits, hlast]
    rfl

/-! ### The context after a message, whatever stood before it -/

/-- Settles O53: the registers hold the message after its commands, and below 2^61 bytes nothing has wrapped. -/
theorem stateAfterUpdates : Obligations.StateAfterUpdates := by
  intro m s hfits hs
  have ha := absorbed_init_updates m hs
  have hshort : m.length < 2 ^ 61 := hfits
  refine ⟨_, execAll_eq _ s, ha.hash, ha.count, fun i hi => ?_, ?_, ha.phase, ?_⟩
  · have hin : 64 * (m.length / 64) + i < m.length := by omega
    rw [ha.tail i hi, List.getD_eq_getElem _ _ hin, List.getElem?_eq_getElem hin]
  · rw [ha.length]
    omega
  · rw [ha.overflow, decide_eq_false (Nat.not_le.mpr hshort)]

/-- Settles O57: from either state the digest is SHA-256 of the message and LEN_OVF tells its length. -/
theorem hashForgetsHistory : Obligations.HashForgetsHistory := by
  intro m s s' hs hs'
  obtain ⟨a, ha, hrun⟩ := execAll_hashCommands m hs
  obtain ⟨a', ha', hrun'⟩ := execAll_hashCommands m hs'
  refine ⟨_, _, hrun, hrun', ?_, ?_, ?_⟩
  · rw [ha.finishMessage_digest, ha'.finishMessage_digest]
  · rw [finishMessage_phase, finishMessage_phase]
  · rw [finishMessage_lenOvf, finishMessage_lenOvf, ha.overflow, ha'.overflow]

/-! ### Command lists in pieces -/

/-- Executing two lists in turn is executing their concatenation (20_memory.md R74). -/
theorem execAll_append (xs ys : List Instr) {s t : State} (h : execAll xs s = .next t) :
    execAll (xs ++ ys) s = execAll ys t := by
  induction xs generalizing s with
  | nil => cases h; rfl
  | cons i rest ih =>
    rw [execAll_cons] at h
    rw [List.cons_append, execAll_cons, ih h]

/-- UPDATES lines stand for the commands of the joined bytes (30_encoding.md R100, 41_stream.md R158). -/
theorem programCommands_updates (chunks : List (List Byte)) :
    programCommands (chunks.map SourceLine.updates) = updatesOf chunks.flatten := by
  induction chunks with
  | nil => rfl
  | cons chunk rest ih =>
    calc programCommands ((chunk :: rest).map SourceLine.updates)
        = updatesOf chunk ++ programCommands (rest.map SourceLine.updates) := List.flatMap_cons
      _ = updatesOf chunk ++ updatesOf rest.flatten := by rw [ih]
      _ = updatesOf (chunk :: rest).flatten := List.map_append.symm

/-- Settles O59: line by line for the commands, and command by command for their effect. -/
theorem chunkingDoesNotMatter : Obligations.ChunkingDoesNotMatter :=
  ⟨programCommands_updates, fun xs ys _ _ h => execAll_append xs ys h⟩

/-! ### INIT -/

theorem createContext_createContext (s : State) : createContext (createContext s) = createContext s := rfl

theorem digestValid_of_active {s : State} (h : s.phase = .active) : digestValid s = false := by
  simp [digestValid, h]

/-- Settles O19: outside FAULT INIT creates the context, in which a second one finds nothing to do. -/
theorem initCreatesFreshContext : Obligations.InitCreatesFreshContext := by
  refine ⟨by decide, fun s => ⟨fun hs => ?_, exec_init_of_fault⟩⟩
  have hactive := createContext_phase s
  have hagain : exec .init (createContext s) = .next (createContext s) := by
    rw [exec_init_of_not_fault (by simp), createContext_createContext]
  exact ⟨createContext s, exec_init_of_not_fault hs, rfl, rfl, rfl, rfl, hactive, rfl, fun a => ⟨rfl, rfl⟩,
    digestValid_of_active hactive, hagain⟩

end Sys2Proof.Machine

namespace Sys2Proof.Machine

/-! ### FINAL in ACTIVE: what it leaves in each register -/

theorem exec_final_of_active {s : State} (hp : s.phase = .active) : exec .final s = .next (finishMessage s) := by
  rw [exec_eq, afterCommand, afterFinal, hp]

/-- TOTAL is latched before the padding and stays (R171). -/
theorem finishMessage_total (s : State) : (finishMessage s).total = add64 s.bitlen (bufferedBits s.buflen) := by
  rw [finishMessage, enterDone_total, writeDigest_total, compress_total, storeLength_total, padBuffer_total,
    latchTotal_total]

theorem bufferedBits_eq_ofNat (n : BitVec 6) : bufferedBits n = BitVec.ofNat 64 (8 * n.toNat) := by
  rw [← toNat_bufferedBits, BitVec.ofNat_toNat, BitVec.setWidth_eq]

/-- TOTAL as a number: the bits counted and the bits buffered, modulo 2^64 (R171). -/
theorem toNat_finishMessage_total (s : State) :
    (finishMessage s).total.toNat = (s.bitlen.toNat + 8 * s.buflen.toNat) % 2 ^ 64 := by
  rw [finishMessage_total, add64, BitVec.toNat_add, toNat_bufferedBits]

/-- BUF is left as the last COMPRESS read it (R175). -/
theorem finishMessage_buf (s : State) :
    (finishMessage s).buf = (storeLength (padBuffer s.buflen (latchTotal s.buflen s))).buf := by
  rw [finishMessage, enterDone_buf, writeDigest_buf, compress_buf]

theorem finishMessage_buf_of_le {s : State} (hn : s.buflen.toNat ≤ 55) :
    (finishMessage s).buf = onlyPadBlock s.buf s.buflen.toNat (finishMessage s).total := by
  rw [finishMessage_buf, storeLength_padBuffer_of_le hn, latchTotal_buf, latchTotal_total, finishMessage_total]

theorem finishMessage_buf_of_ge {s : State} (hn : 56 ≤ s.buflen.toNat) :
    (finishMessage s).buf = secondPadBlock (finishMessage s).total := by
  rw [finishMessage_buf, storeLength_padBuffer_of_ge hn, latchTotal_total, finishMessage_total]

/-- The padding goes behind the buffered bytes (R172). -/
theorem readByte_onlyPadBlock_of_lt (buf : Vector Byte 64) (total : BitVec 64) {n a : Nat} (hn : n ≤ 64) (ha : a < n) :
    readByte (onlyPadBlock buf n total) a = readByte buf a := by
  rw [onlyPadBlock, readByte_tabulate, if_pos (by omega), if_pos ha]

/-- The last eight bytes of the block compressed last are those of TOTAL, on either path (R174). -/
theorem readByte_finishMessage_buf_length (s : State) {k : Nat} (hk : k < 8) :
    readByte (finishMessage s).buf (lengthOffset + k) = byteOf 8 (finishMessage s).total k := by
  rw [finishMessage_buf, storeLength_buf, readByte_memWrite, if_pos (by rw [lengthOffset]; omega),
    Nat.add_sub_cancel_left, padBuffer_total, latchTotal_total, finishMessage_total]

/-- The padding writes BUF and, through COMPRESS, H and the scratch (R172, R173). -/
theorem padBuffer_frame (n : BitVec 6) (s : State) :
    padBuffer n s = { s with h := (padBuffer n s).h, buf := (padBuffer n s).buf, scratch := (padBuffer n s).scratch } := by
  by_cases hn : n.toNat ≤ 55
  · rw [padBuffer_of_le hn]
    rfl
  · rw [padBuffer_of_ge (by omega)]
    rfl

/-- FINAL writes H, BUF, the scratch, TOTAL, DIGEST and PHASE, and nothing else (R170 to R177). -/
theorem finishMessage_frame (s : State) :
    finishMessage s =
      { s with
        h := (finishMessage s).h, buf := (finishMessage s).buf, scratch := (finishMessage s).scratch
        total := (finishMessage s).total, digest := (finishMessage s).digest, phase := (finishMessage s).phase } := by
  rw [finishMessage, padBuffer_frame]
  rfl

/-- Settles O23: the padded buffer and the value of H on each of the two paths, and the frame of FINAL. -/
theorem finalPadsCompressesDelivers : Obligations.FinalPadsCompressesDelivers := by
  intro s hp
  have htotal := finishMessage_total s
  refine ⟨finishMessage s, exec_final_of_active hp, ?_, fun hn => ⟨finishMessage_buf_of_le hn, ?_, fun a ha => ?_⟩,
    fun hn => ⟨finishMessage_buf_of_ge hn, ?_⟩, finishMessage_digest s, finishMessage_phase s, finishMessage_frame s⟩
  · rw [htotal, bufferedBits_eq_ofNat, add64]
  · rw [finishMessage_h_of_le hn, htotal]
  · rw [finishMessage_buf_of_le hn, readByte_onlyPadBlock_of_lt _ _ (by omega) ha]
  · rw [finishMessage_h_of_ge hn, htotal]

/-- Settles O24: TOTAL as a number; above a multiple of 512 the buffered bits, at most 504, do not carry. -/
theorem finalLatchesTotalLength : Obligations.FinalLatchesTotalLength := by
  intro s hp
  have htotal := toNat_finishMessage_total s
  refine ⟨finishMessage s, exec_final_of_active hp, htotal, fun hmultiple => ?_, finishMessage_bitlen s,
    finishMessage_buflen s, finishMessage_lenOvf s⟩
  have hbits := s.bitlen.isLt
  have hbytes := s.buflen.isLt
  omega

/-- Settles O25: byte `k` of TOTAL, counted from the most significant, is its bits from 56 - 8k on. -/
theorem finalStoresLengthBigEndian : Obligations.FinalStoresLengthBigEndian := by
  intro s hp
  refine ⟨finishMessage s, exec_final_of_active hp, rfl, fun i hi => ?_⟩
  rw [readByte_finishMessage_buf_length s hi, byteOf, show 8 * (8 - i - 1) = 56 - 8 * i by omega]

/-- Settles O26: DIGEST is the serialised H, whose bytes are known word by word. -/
theorem finalSerialisesBigEndian : Obligations.FinalSerialisesBigEndian := by
  intro s hp
  refine ⟨finishMessage s, exec_final_of_active hp, fun i j hi hj => ?_⟩
  rw [finishMessage_digest, readByte_digestOf _ hi hj, byteOfWord]

/-! ### The padding tells messages apart -/

@[simp] theorem length_lengthBytes (bits : Nat) : (lengthBytes bits).length = 8 := by
  rw [lengthBytes, List.length_map, List.length_range]

/-- The length field determines the length, modulo 2^64 (R174). -/
theorem ofNat_eq_of_lengthBytes_eq {bits bits' : Nat} (h : lengthBytes bits = lengthBytes bits') :
    BitVec.ofNat 64 bits = BitVec.ofNat 64 bits' := by
  refine @eq_of_byteOf_eq 8 _ _ fun k hk => ?_
  rw [byteOf_eight_ofNat, byteOf_eight_ofNat]
  exact List.map_inj_left.mp h k (List.mem_range.mpr hk)

/-- The padded message ends in the length field (R179). -/
theorem lengthBytes_eq_of_padMessage_eq {m m' : List Byte} (h : padMessage m = padMessage m') :
    lengthBytes (8 * m.length) = lengthBytes (8 * m'.length) := by
  simp only [padMessage, ← List.cons_append, ← List.append_assoc] at h
  exact List.append_inj_right' h (by simp)

/-- Below 2^61 bytes the padded form gives the length, and the message is its first bytes (R179). -/
theorem eq_of_padMessage_eq {m m' : List Byte} (hm : messageFits m) (hm' : messageFits m')
    (h : padMessage m = padMessage m') : m = m' := by
  have hlen : m.length = m'.length := by
    have hbits := congrArg BitVec.toNat (ofNat_eq_of_lengthBytes_eq (lengthBytes_eq_of_padMessage_eq h))
    rw [BitVec.toNat_ofNat, BitVec.toNat_ofNat] at hbits
    unfold messageFits at hm hm'
    omega
  exact List.append_inj_left h hlen

/-- Settles O58: the length of the padded message, and the length field that tells how much of it is message. -/
theorem paddingIsWholeAndInjective : Obligations.PaddingIsWholeAndInjective := by
  refine ⟨fun m => ?_, fun m m' => eq_of_padMessage_eq⟩
  have hzeros : padZeros m.length = (119 - m.length % 64) % 64 := rfl
  rw [length_padMessage, hzeros]
  split <;> omega

/-- Settles O56: the digest of each message, computed. -/
theorem knownAnswerDigests : Obligations.KnownAnswerDigests :=
  ⟨by decide +kernel, by decide +kernel, by decide +kernel⟩

end Sys2Proof.Machine

namespace Sys2Proof.Machine

/-! ### Commands as accepted words -/

/-- A command does what its own word does when it is accepted (30_encoding.md R93, R94). -/
theorem exec_eq_afterAccept_encode (i : Instr) (s : State) : exec i s = .next (afterAccept (encode i) s) := by
  rw [← dispatchWord_eq, dispatchWord_of_command (decode_encode i)]

/-! ### Into FAULT -/

/-- The numbering of the causes leaves the codes 6 and 7 free (60_exceptions.md R190). -/
theorem toNat_causeCode_le (c : Cause) : (causeCode c).toNat ≤ 5 := by
  cases c <;> decide

/-- Settles O31: the codes are bounded by 5, and each command's word raises its cause by the equations of dispatch. -/
theorem commandsRaiseTheirCauses : Obligations.CommandsRaiseTheirCauses := by
  have hfree (c : Cause) (n : BitVec 3) (hn : 5 < n.toNat) : causeCode c ≠ n := by
    rintro rfl
    exact absurd (toNat_causeCode_le c) (Nat.not_le.mpr hn)
  refine ⟨⟨rfl, rfl, rfl, rfl, rfl, rfl, fun c => ⟨hfree c 6 (by decide), hfree c 7 (by decide)⟩⟩,
    fun s => ⟨fun hp => ⟨fun d => ?_, ?_⟩, fun hp => ⟨fun d => ?_, ?_⟩, fun w r hs hd => ?_⟩⟩
  · rw [exec_eq_afterAccept_encode, afterAccept_update_done (decode_encode _) hp, raiseFault]
  · rw [exec_eq_afterAccept_encode, afterAccept_final_done (decode_encode _) hp, raiseFault]
  · rw [exec_eq_afterAccept_encode, afterAccept_update_idle (decode_encode _) hp, raiseFault]
  · rw [exec_eq_afterAccept_encode, afterAccept_final_idle (decode_encode _) hp, raiseFault]
  · rw [dispatchWord_eq, afterAccept_reserved hd hs, raiseFault]

/-- The only way into FAULT is raising a cause (60_exceptions.md R196). -/
theorem Dispatched.enters_fault {w : CmdWord} {s t : State} (h : Dispatched w s t) (hs : s.phase ≠ .fault)
    (ht : t.phase = .fault) : ∃ c : Cause, c ≠ .none ∧ t = raiseFault c s := by
  cases h with
  | discarded => exact absurd ht hs
  | faulted c _ hc => exact ⟨c, hc, rfl⟩
  | created => rw [createContext_phase] at ht; cases ht
  | appended d => rw [appendByte_phase] at ht; exact absurd ht hs
  | finished => rw [finishMessage_phase] at ht; cases ht

/-- A ready CORE in FAULT shows it on the ports (60_exceptions.md R197). -/
theorem outputs_of_fault_of_ready {u : State} (hp : u.phase = .fault) (hready : (outputs u).cmdReady = true) :
    (outputs u).fault = true ∧ (outputs u).fcause = causeCode u.fcause ∧ (outputs u).phase = 0b11 := by
  have hbusy := (cmdReady_iff u).mp hready
  have hshown : shownPhase u = .fault := (shownPhase_of_ready hbusy).trans hp
  exact ⟨(fault_iff u).mpr hshown, congrArg causeCode (shownFcause_of_ready hbusy),
    (phaseCode_eq_three_iff _).mpr hshown⟩

/-- Settles O32: what leads into FAULT raised a cause, and a ready CORE shows its registers. -/
theorem faultEntryWritesTwoRegisters : Obligations.FaultEntryWritesTwoRegisters := by
  intro w s t h hs ht
  rw [dispatchWord_eq] at h
  cases h
  obtain ⟨c, hc, hraise⟩ := (dispatched_afterAccept w s).enters_fault hs ht
  rw [hraise]
  refine ⟨rfl, hc, fun u hphase hcause hready => ?_⟩
  rw [← hcause]
  exact outputs_of_fault_of_ready hphase hready

/-! ### In FAULT, and out of it -/

/-- Settles O33: no word changes a state in FAULT, those of the commands among them. -/
theorem faultDiscardsEveryWord : Obligations.FaultDiscardsEveryWord := by
  refine fun w s hs => ⟨?_, fun i => ?_⟩
  · rw [dispatchWord_eq, afterAccept_of_fault w hs]
  · rw [exec_eq_afterAccept_encode, afterAccept_of_fault _ hs]

/-- A word accepted in FAULT is in flight like any other and changes no register but BUSY (60_exceptions.md R199). -/
theorem sameRegisters_of_accepts_of_fault {s t : State} (h : step s = .next t) (ha : accepts s = true)
    (hs : s.phase = .fault) : SameRegisters s t := by
  rw [step_of_accepts h ha, afterAccept_of_fault _ (s := takeSample s) hs]
  rfl

/-- Settles O34: reset clears the control registers, and any other step accepts a word in vain or none at all. -/
theorem onlyResetLeavesFault : Obligations.OnlyResetLeavesFault := by
  refine fun s t h hs => ⟨fun hr => ?_, fun hr => ?_⟩
  · rw [step_of_resetTakes h hr]
    exact ⟨resetEvent_phase _, resetEvent_fcause _, resetEvent_lenOvf _, resetEvent_buflen _, resetEvent_bitlen _⟩
  · cases ha : accepts s with
    | true => exact sameRegisters_of_accepts_of_fault h ha hs
    | false => exact step_keeps_registers h hr ha

end Sys2Proof.Machine

namespace Sys2Proof.Machine

/-! ### The fault port -/

/-- A status port, once it shows the register, shows it for the rest of the command and after it
(70_reset_and_hazards.md R234). -/
theorem portSettled_of_later {s t : State} {p : StatusPort} (hsettle : t.settle = s.settle)
    (hlater : t.busy = true → s.busy = true ∧ t.left ≤ s.left) (hp : portSettled p s = true) :
    portSettled p t = true := by
  have hpoint : settlePoint p t = settlePoint p s := by simp only [settlePoint, hsettle]
  cases hb : t.busy with
  | false => exact portSettled_of_ready hb p
  | true =>
    obtain ⟨hbusy, hleft⟩ := hlater hb
    simp only [portSettled, hbusy, hb, hpoint, Bool.not_true, Bool.false_or, decide_eq_true_eq] at hp ⊢
    exact hleft.trans hp

/-- A fault on the port is one in PHASE, and the port has turned to it or showed one before (R37, R234). -/
theorem shownPhase_eq_fault_iff {s : State} (hs : Inv s) :
    shownPhase s = .fault ↔ s.phase = .fault ∧ (portSettled .phase s = true ∨ s.before.phase = .fault) := by
  cases hp : portSettled .phase s with
  | true => simp [shownPhase, hp]
  | false =>
    have hbusy : s.busy = true := by
      by_contra hb
      simp [portSettled_of_ready (eq_false_of_ne_true hb)] at hp
    simpa [shownPhase, hp] using fun hbefore => hs.sticky hbefore hbusy

/-- What the fault port has shown it goes on showing: every step but a reset counts down, or starts a wait in FAULT. -/
theorem step_keeps_fault_shown {s t : State} (hs : Inv s) (h : step s = .next t) (hr : resetTakes s = false)
    (hphase : s.phase = .fault) (hshown : portSettled .phase s = true ∨ s.before.phase = .fault) :
    portSettled .phase t = true ∨ t.before.phase = .fault := by
  rcases step_cases h with ⟨hr', -⟩ | ⟨-, -, -, rfl⟩ | ⟨-, -, -, -, rfl⟩ | ⟨-, -, -, -, hb, rfl⟩ | ⟨-, -, -, rfl⟩ |
    ⟨-, -, -, -, -, rfl⟩
  · simp [hr] at hr'
  · exact hshown
  · cases hb : s.busy with
    | false => rw [holdEdge_of_ready (s := takeSample s) hb]; exact .inr hphase
    | true =>
      have hpos : s.left ≠ 0 := hs.flight.mp hb
      have hleft : max 1 (s.left - 1) ≤ s.left := by omega
      rw [holdEdge_of_busy (s := takeSample s) hb]
      exact hshown.imp_left (portSettled_of_later (s := s) rfl fun _ => ⟨hb, hleft⟩)
  · rw [flightEdge_before]
    exact hshown.imp_left (portSettled_of_later (flightEdge_settle _) fun _ =>
      ⟨hb, (flightEdge_left _).trans_le (Nat.sub_le _ _)⟩)
  · exact .inr hphase
  · exact hshown

/-- Settles O42: a fault on the port is one in PHASE, which only reset leaves, and the port does not turn back. -/
theorem faultPortStaysUntilReset : Obligations.FaultPortStaysUntilReset := by
  intro s t hs h hr hfault
  obtain ⟨hphase, hshown⟩ := (shownPhase_eq_fault_iff hs).mp ((fault_iff s).mp hfault)
  have hsame : SameRegisters s t := (onlyResetLeavesFault s t h hphase).2 hr
  exact (fault_iff t).mpr ((shownPhase_eq_fault_iff (stepKeepsInvariant s t hs h)).mpr
    ⟨hsame.phase.trans hphase, step_keeps_fault_shown hs h hr hphase hshown⟩)

/-! ### Waiting until the CORE is ready -/

/-- Quiet inputs begin with a clock edge at which rst is not asserted, and those after it are quiet. -/
theorem quietFor_succ {n : Nat} {s : State} (hq : quietFor (n + 1) s) :
    (nextSample s).clk = true ∧ (nextSample s).rst = none ∧ quietFor n (takeSample s) := by
  unfold quietFor at hq ⊢
  unfold nextSample
  rw [takeSample_inputs]
  cases hin : s.inputs with
  | nil => exact ⟨rfl, rfl, by simp⟩
  | cons p ps =>
    rw [hin, List.take_succ_cons, List.forall_mem_cons] at hq
    exact ⟨hq.1.1, hq.1.2, hq.2⟩

theorem quietFor_of_le {m n : Nat} {s : State} (hmn : m ≤ n) (hq : quietFor n s) : quietFor m s :=
  fun p hp => hq p (List.take_subset_take_left _ hmn hp)

/-- The state after all the cycles left, with no reset on the way: ready, every register but BUSY as it was
(70_reset_and_hazards.md R238). -/
def afterWait (s : State) : State :=
  { s with busy := false, left := 0, inputs := s.inputs.drop s.left, instant := s.instant + s.left }

theorem afterWait_of_ready {s : State} (hb : s.busy = false) (hl : s.left = 0) : afterWait s = s := by
  unfold afterWait
  rw [hl, List.drop_zero, Nat.add_zero, ← hb, ← hl]

/-- Waiting one cycle first makes no difference to where the wait ends. -/
theorem afterWait_flightEdge {n : Nat} {s : State} (hl : s.left = n + 1) :
    afterWait (flightEdge (takeSample s)) = afterWait s := by
  rw [flightEdge_frame]
  simp [afterWait, hl, takeSample, Nat.add_assoc, Nat.add_comm 1]

/-- The CORE waits the cycles it has left, whatever the host presents meanwhile (R238; log entry 11). -/
theorem run_left_of_quiet {s : State} (hs : Inv s) (hq : quietFor s.left s) :
    Sys2Proof.core.run s.left s = .next (afterWait s) := by
  induction hl : s.left generalizing s with
  | zero =>
    have hb : s.busy = false := eq_false_of_ne_true fun hb => hs.flight.mp hb hl
    rw [run_zero, afterWait_of_ready hb hl]
  | succ n ih =>
    have hb : s.busy = true := hs.flight.mpr (by omega)
    obtain ⟨hclk, hrst, hq'⟩ := quietFor_succ (hl ▸ hq)
    have hstep := step_of_busy hclk hrst hb
    have hl' : (flightEdge (takeSample s)).left = n := by rw [flightEdge_left, takeSample_left, hl, Nat.add_sub_cancel]
    rw [run_succ hstep, ih (stepKeepsInvariant _ _ hs hstep) ?_ hl', afterWait_flightEdge hl]
    unfold quietFor
    rw [hl', flightEdge_inputs]
    exact hq'

theorem afterWait_cmdReady (s : State) : (outputs (afterWait s)).cmdReady = true := rfl

/-- Settles O46: the run of as many steps as there are cycles left ends in the same registers with BUSY = 0. -/
theorem everyCommandCompletes : Obligations.EveryCommandCompletes :=
  fun s hs hq => ⟨afterWait s, run_left_of_quiet hs hq, afterWait_cmdReady s, rfl⟩

/-! ### Reset -/

/-- Where rst is asserted, reset takes effect at an edge or in the asynchronous style, if the assertion is wide enough
(70_reset_and_hazards.md R221). -/
theorem resetTakes_of_some {s : State} {width : Nat} (h : (nextSample s).rst = some width) :
    resetTakes s = (((nextSample s).clk || Config.resetStyle.asynchronous) && wideEnough width s) := by
  simp only [resetTakes, h]

theorem wideEnough_of_le {width : Nat} (h : Config.resetStyle.minWidth ≤ width) (s : State) :
    wideEnough width s = true := by
  simp [wideEnough, h]

/-- Settles O49: when reset takes effect by its definition, and the wait after it is a wait like any other. -/
theorem resetEndsWithinBound : Obligations.ResetEndsWithinBound := by
  refine ⟨fun s => resetTakes_of_none, fun s width hrst hwide => ⟨fun hclk => ?_, fun hclk => ?_⟩,
    fun s t hr h hq => ?_⟩
  · rw [resetTakes_of_some hrst, hclk, wideEnough_of_le hwide, Bool.true_or, Bool.true_and]
  · rw [resetTakes_of_some hrst, hclk, wideEnough_of_le hwide, Bool.false_or, Bool.and_true]
  · obtain rfl := step_of_resetTakes h hr
    obtain ⟨hpos, hbound⟩ := resetLatency_bounds (takeSample s).instant (registerValues (takeSample s))
    exact ⟨_, afterWait _, hpos, hbound, run_left_of_quiet (inv_resetEvent _) (quietFor_of_le hbound hq),
      afterWait_cmdReady _, rfl⟩

/-- After a reset the status ports show the reset status, whichever of the two values they show (10_state.md R42). -/
theorem resetEvent_shown (s : State) :
    shownPhase (resetEvent s) = .idle ∧ shownFcause (resetEvent s) = .none ∧ shownLenOvf (resetEvent s) = false :=
  ⟨ite_self _, ite_self _, ite_self _⟩

/-- Settles O48: the step is the reset, whose registers, ports and invariant are known. -/
theorem resetEdgeAbandonsEverything : Obligations.ResetEdgeAbandonsEverything := by
  intro s hr
  have hstep : step s = .next (resetEvent (takeSample s)) := step_of_resetTakes (step_eq s) hr ▸ step_eq s
  obtain ⟨hphase, hcause, hovf⟩ := resetEvent_shown (takeSample s)
  have hfault : (outputs (resetEvent (takeSample s))).fault = false := by simp [outputs, faultPort, hphase]
  exact ⟨_, hstep, rfl, rfl, rfl, rfl, rfl, rfl, congrArg phaseCode hphase, congrArg causeCode hcause, hovf, rfl,
    hfault, rfl, inv_resetEvent _⟩

/-! ### Latencies -/

/-- In FAULT every word is discarded, and takes T_FAULT (70_reset_and_hazards.md R239). -/
theorem latencyCase_of_fault {s : State} (hs : s.phase = .fault) (d : Decoded) : latencyCase d s = .tFault := by
  cases d with
  | reserved r => rfl
  | command i => cases i <;> simp [latencyCase, hs]

/-- In ACTIVE every command has a case of its own, UPDATE and FINAL two, by what BUFLEN asks for (R239). -/
theorem latencyCase_of_active {s : State} (hs : s.phase = .active) (d : Byte) :
    latencyCase (.command .init) s = .tInit ∧
    latencyCase (.command (.update d)) s = (if s.buflen = 63 then .tUpdateCmp else .tUpdate) ∧
    latencyCase (.command .final) s = (if s.buflen.toNat ≤ 55 then .tFinal1 else .tFinal2) := by
  have hblocks : 56 ≤ s.buflen.toNat ↔ ¬ s.buflen.toNat ≤ 55 := by omega
  exact ⟨by simp [latencyCase, hs], by simp [latencyCase, hs, blockCompletes],
    by simp only [latencyCase, hs, if_true, needsTwoBlocks_iff, hblocks, ite_not]⟩

/-- Settles O47: an accepted word is in flight for its latency, and each case by its phase. -/
theorem acceptedWordTakesItsLatency : Obligations.AcceptedWordTakesItsLatency := by
  refine ⟨fun s ha => ?_, fun s hs => latencyCase_of_fault hs, fun s d hs => latencyCase_of_active hs d⟩
  exact ⟨_, step_of_accepts (step_eq s) ha ▸ step_eq s, rfl, Nat.one_le_iff_ne_zero.mpr (latencyOf_ne_zero _ _), rfl⟩

end Sys2Proof.Machine
